-- ==== Sys2Proof/Word.lean ====
section
/-! DEFINITION. The bit-vector types of the block: the 32-bit Random Register word (R20), the 8-bit serial unit
(R70) and the 4-bit event word (R78). -/

namespace Sys2Proof

/-- A value of the Random Register, `W = 32` bits (00_scope.md R10, 10_state.md R20). -/
abbrev Word := BitVec 32

/-- A byte of the serial link or of the Random Register (20_memory.md R52, 30_encoding.md R70). -/
abbrev Byte := BitVec 8

/-- An event word of a trace: bits 3:1 name the operation, bit 0 is its operand (30_encoding.md R76, R78). -/
abbrev EventWord := BitVec 4

end Sys2Proof
end

