-- ==== Sys2Proof/Config.lean ====
section
/-! DEFINITION. What is fixed for one block: the parameters the spec leaves open (00_scope.md R10), and the free
values it asks for (`draw_bit`, `draw_byte`, R13), which have no body. -/

namespace Sys2Proof

/-- The protocol variant (R3): A negotiates a count, B streams. Fixed per block. -/
inductive Variant where
  | A
  | B
deriving DecidableEq, Repr

/-- The open parameters of R10 that a rule reads. `F_SAMPLE` is left out: no rule depends on it (R182). -/
structure Cfg where
  /-- `VARIANT` (R3, D2). -/
  variant : Variant
  /-- `SEED`, the value `RESET` gives `RR` (R20, D4). -/
  seed : Word
  /-- `COUNT_RESET_ON_SELECT` (R123, D11). -/
  countResetOnSelect : Bool
  /-- `ATOMIC_MIX` (R53, D12). -/
  atomicMix : Bool
deriving DecidableEq, Repr

/-- The constraint R20 puts on `SEED`: nonzero, with bits 31:25 zero. -/
abbrev Cfg.Legal (c : Cfg) : Prop := c.seed ≠ 0#32 ∧ c.seed.extractLsb' 25 7 = 0#7

/-- The defaults of R10. `VARIANT` has none: A is the model's choice (DESIGN CHOICE, unsafe for a claim about the
reset state alone; notes/assumptions/4.md). `SEED` is the default value R10 gives (notes/assumptions/5.md). -/
def Cfg.default : Cfg :=
  { variant := .A, seed := 0x01555555#32, countResetOnSelect := true, atomicMix := false }

/-- `draw_bit()` (R13): the free bit of the draw numbered `k`; nothing is known of it (notes/assumptions/8.md). -/
opaque Config.freeBit : Nat → Bool

/-- `draw_byte()` (R13): the free byte of the draw numbered `k`; nothing is known of it (notes/assumptions/8.md). -/
opaque Config.freeByte : Nat → Byte

end Sys2Proof
end

