-- ==== Sys2Proof/Syntax.lean ====
section
/-! DEFINITION. The instructions: one constructor per row of spec/opcode_table.json. Eight rows are events of the
trace (30_encoding.md R76); ten are the values of the byte that a Variant-A block receives (R72, R73). -/

namespace Sys2Proof

/-- The operations of the block. A `data…` constructor carries the bits its row leaves free. -/
inductive Instr where
  /-- `TICK n`: one sample of the noise pin (R106). -/
  | tick (n : Bool)
  /-- `MIX_COMMIT`: the end of a mix's write (R108). -/
  | mixCommit
  /-- `CS_FALL`: chip-select asserted (R121). -/
  | csFall
  /-- `CS_RISE`: chip-select deasserted (R124). -/
  | csRise
  /-- `SCK d`: one clock pulse with `DI = d` (R141). -/
  | sck (d : Bool)
  /-- `BYTE_COMPLETE` of a Variant-A block (R146). -/
  | byteCompleteA
  /-- `BYTE_COMPLETE` of a Variant-B block (R150). -/
  | byteCompleteB
  /-- `RESET`: power-on (R200). -/
  | reset
  /-- Received byte 0x01: a control byte, `N = 1` (R72). -/
  | ctrl1
  /-- Received byte 0x02: a control byte, `N = 2` (R72). -/
  | ctrl2
  /-- Received byte 0x00: a data clock (R73). -/
  | data00
  /-- Received byte 0x03: a data clock (R73). -/
  | data03
  /-- Received byte 0x04 to 0x07: a data clock (R73). -/
  | data04to07 (x : BitVec 2)
  /-- Received byte 0x08 to 0x0F: a data clock (R73). -/
  | data08to0F (x : BitVec 3)
  /-- Received byte 0x10 to 0x1F: a data clock (R73). -/
  | data10to1F (x : BitVec 4)
  /-- Received byte 0x20 to 0x3F: a data clock (R73). -/
  | data20to3F (x : BitVec 5)
  /-- Received byte 0x40 to 0x7F: a data clock (R73). -/
  | data40to7F (x : BitVec 6)
  /-- Received byte 0x80 to 0xFF: a data clock (R73). -/
  | data80toFF (x : BitVec 7)
deriving DecidableEq, Repr

/-- The instruction is an event of the trace (R76), not a row of the received byte. -/
def Instr.isEvent : Instr → Bool
  | .tick _ | .mixCommit | .csFall | .csRise | .sck _ | .byteCompleteA | .byteCompleteB | .reset => true
  | .ctrl1 | .ctrl2 | .data00 | .data03 | .data04to07 _ | .data08to0F _ | .data10to1F _ | .data20to3F _
  | .data40to7F _ | .data80toFF _ => false

/-- The row is a control byte (R72). -/
def Instr.isControlRow : Instr → Bool
  | .ctrl1 | .ctrl2 => true
  | .tick _ | .mixCommit | .csFall | .csRise | .sck _ | .byteCompleteA | .byteCompleteB | .reset
  | .data00 | .data03 | .data04to07 _ | .data08to0F _ | .data10to1F _ | .data20to3F _
  | .data40to7F _ | .data80toFF _ => false

/-- The row is a data clock (R73). -/
def Instr.isDataRow : Instr → Bool
  | .data00 | .data03 | .data04to07 _ | .data08to0F _ | .data10to1F _ | .data20to3F _
  | .data40to7F _ | .data80toFF _ => true
  | .tick _ | .mixCommit | .csFall | .csRise | .sck _ | .byteCompleteA | .byteCompleteB | .reset
  | .ctrl1 | .ctrl2 => false

/-- The instruction is the byte-complete handler, whole or by the row of the byte it received (R144, R146, R150). -/
def Instr.isHandler : Instr → Bool
  | .byteCompleteA | .byteCompleteB | .ctrl1 | .ctrl2 | .data00 | .data03 | .data04to07 _ | .data08to0F _
  | .data10to1F _ | .data20to3F _ | .data40to7F _ | .data80toFF _ => true
  | .tick _ | .mixCommit | .csFall | .csRise | .sck _ | .reset => false

/-- The instruction belongs to the entropy path (60_exceptions.md R184), or is the reset, which re-starts it. -/
def Instr.isEntropy : Instr → Bool
  | .tick _ | .mixCommit | .reset => true
  | .csFall | .csRise | .sck _ | .byteCompleteA | .byteCompleteB | .ctrl1 | .ctrl2 | .data00 | .data03
  | .data04to07 _ | .data08to0F _ | .data10to1F _ | .data20to3F _ | .data40to7F _ | .data80toFF _ => false

/-- An encoded instruction: a 4-bit word of the trace (R78) or a received byte (R71). -/
inductive Code where
  | event (w : EventWord)
  | received (b : Byte)
deriving DecidableEq, Repr

/-- Why the decoder gives no instruction (R77; R74 for the last). -/
inductive Reject where
  /-- Words 0011, 0101, 0111, 1011, 1101: operand bit set on an operation that has none. -/
  | operandNotZero (w : EventWord)
  /-- Words 1110 and 1111: bits 3:1 are 111. -/
  | noOperation (w : EventWord)
  /-- A received byte in Variant B, which decodes none (R74). -/
  | notDecodedInVariantB (b : Byte)
deriving DecidableEq, Repr

end Sys2Proof
end

