-- ==== Sys2Proof/WellFormed.lean ====
section
/-! DEFINITION. Which instructions a block of a given variant has. The fields of an instruction are exactly as wide as
the bits its row leaves free, so the variant is the only thing to check. -/

namespace Sys2Proof

/-- The instruction exists in a block of variant `v`: `BYTE_COMPLETE` is the variant's own rule (R144), and only
Variant A decodes received bytes (R72, R74). Everything else is shared (R3, 41_transport.md). -/
def WellFormed (v : Variant) : Instr → Bool
  | .tick _ | .mixCommit | .csFall | .csRise | .sck _ | .reset => true
  | .byteCompleteA => decide (v = .A)
  | .byteCompleteB => decide (v = .B)
  | .ctrl1 | .ctrl2 | .data00 | .data03 | .data04to07 _ | .data08to0F _ | .data10to1F _ | .data20to3F _
  | .data40to7F _ | .data80toFF _ => decide (v = .A)

end Sys2Proof
end

