-- ==== Sys2Proof/Decode.lean ====
section
/-! DEFINITION. Decoding and encoding: event words (30_encoding.md R76-R78), the Variant-A received byte (R72, R73),
the pseudo-events (R80) and the trace syntax (R79), and the opcode table's own numbering of an instruction's bits. -/

namespace Sys2Proof

/-! ## Event words -/

/-- The operation that bits 3:1 of the word name, with bit 0 as its operand (R76); the words that spell none are
rejected by name (R77). Word 1010 is the rule of the block's own variant (R144). -/
def decodeEvent (v : Variant) (w : EventWord) : Except Reject Instr :=
  let operand := w.getLsbD 0
  match w.extractLsb' 1 3 with
  | 0b000#3 => .ok (.tick operand)
  | 0b001#3 => if operand then .error (.operandNotZero w) else .ok .mixCommit
  | 0b010#3 => if operand then .error (.operandNotZero w) else .ok .csFall
  | 0b011#3 => if operand then .error (.operandNotZero w) else .ok .csRise
  | 0b100#3 => .ok (.sck operand)
  | 0b101#3 =>
    if operand then .error (.operandNotZero w)
    else match v with
      | .A => .ok .byteCompleteA
      | .B => .ok .byteCompleteB
  | 0b110#3 => if operand then .error (.operandNotZero w) else .ok .reset
  | _ => .error (.noOperation w)

/-! ## The Variant-A received byte -/

/-- The ten (match, mask) rows of R73, in its order. -/
def receivedRows : List (Byte × Byte) :=
  [(0x01#8, 0xFF#8), (0x02#8, 0xFF#8), (0x00#8, 0xFF#8), (0x03#8, 0xFF#8), (0x04#8, 0xFC#8),
   (0x08#8, 0xF8#8), (0x10#8, 0xF0#8), (0x20#8, 0xE0#8), (0x40#8, 0xC0#8), (0x80#8, 0x80#8)]

/-- The row of R73 that a received byte is in. The rows cover all 256 values, so decoding is total. -/
def decodeReceived (b : Byte) : Instr :=
  if b &&& 0xFF#8 = 0x01#8 then .ctrl1
  else if b &&& 0xFF#8 = 0x02#8 then .ctrl2
  else if b &&& 0xFF#8 = 0x00#8 then .data00
  else if b &&& 0xFF#8 = 0x03#8 then .data03
  else if b &&& 0xFC#8 = 0x04#8 then .data04to07 (b.extractLsb' 0 2)
  else if b &&& 0xF8#8 = 0x08#8 then .data08to0F (b.extractLsb' 0 3)
  else if b &&& 0xF0#8 = 0x10#8 then .data10to1F (b.extractLsb' 0 4)
  else if b &&& 0xE0#8 = 0x20#8 then .data20to3F (b.extractLsb' 0 5)
  else if b &&& 0xC0#8 = 0x40#8 then .data40to7F (b.extractLsb' 0 6)
  else .data80toFF (b.extractLsb' 0 7)

/-! ## Both at once -/

/-- The instruction an encoded one stands for in a block of variant `v`. -/
def decodeCode (v : Variant) : Code → Except Reject Instr
  | .event w => decodeEvent v w
  | .received b =>
    match v with
    | .A => .ok (decodeReceived b)
    | .B => .error (.notDecodedInVariantB b)

/-- A word of the table of R76 with a one-bit operand in bit 0. -/
def eventWithOperand (op : BitVec 3) (operand : Bool) : EventWord := op ++ BitVec.ofBool operand

/-- The encoding of an instruction: R76 for events, R73 for received bytes. -/
def encode : Instr → Code
  | .tick n => .event (eventWithOperand 0b000#3 n)
  | .mixCommit => .event 0b0010#4
  | .csFall => .event 0b0100#4
  | .csRise => .event 0b0110#4
  | .sck d => .event (eventWithOperand 0b100#3 d)
  | .byteCompleteA => .event 0b1010#4
  | .byteCompleteB => .event 0b1010#4
  | .reset => .event 0b1100#4
  | .ctrl1 => .received 0x01#8
  | .ctrl2 => .received 0x02#8
  | .data00 => .received 0x00#8
  | .data03 => .received 0x03#8
  | .data04to07 x => .received (0b000001#6 ++ x)
  | .data08to0F x => .received (0b00001#5 ++ x)
  | .data10to1F x => .received (0b0001#4 ++ x)
  | .data20to3F x => .received (0b001#3 ++ x)
  | .data40to7F x => .received (0b01#2 ++ x)
  | .data80toFF x => .received (0b1#1 ++ x)

/-! ## The opcode table's rows -/

/-- How many bits the table gives the row of an instruction, its mask and its match (spec/opcode_table.json). -/
def tableRow : Instr → Nat × Byte × Byte
  | .tick _ => (4, 0x0E#8, 0x00#8)
  | .mixCommit => (4, 0x0F#8, 0x02#8)
  | .csFall => (4, 0x0F#8, 0x04#8)
  | .csRise => (4, 0x0F#8, 0x06#8)
  | .sck _ => (4, 0x0E#8, 0x08#8)
  | .byteCompleteA => (4, 0x0F#8, 0x0A#8)
  | .byteCompleteB => (4, 0x0F#8, 0x0A#8)
  | .reset => (4, 0x0F#8, 0x0C#8)
  | .ctrl1 => (8, 0xFF#8, 0x01#8)
  | .ctrl2 => (8, 0xFF#8, 0x02#8)
  | .data00 => (8, 0xFF#8, 0x00#8)
  | .data03 => (8, 0xFF#8, 0x03#8)
  | .data04to07 _ => (8, 0xFC#8, 0x04#8)
  | .data08to0F _ => (8, 0xF8#8, 0x08#8)
  | .data10to1F _ => (8, 0xF0#8, 0x10#8)
  | .data20to3F _ => (8, 0xE0#8, 0x20#8)
  | .data40to7F _ => (8, 0xC0#8, 0x40#8)
  | .data80toFF _ => (8, 0x80#8, 0x80#8)

/-- How many bits an encoded instruction has. -/
def codeSize : Code → Nat
  | .event _ => 4
  | .received _ => 8

/-- The bits of an encoded instruction, numbered as the table numbers them. -/
def codeBits : Code → Byte
  | .event w => w.setWidth 8
  | .received b => b

/-- Which of the two encodings a word of the opcode table is read in. A row of 4 bits is an event word and a row of 8
bits a received byte; but where a row's size is given in whole bytes both are 8, and then a value that spells an event
(R76) is read as that event, any other as a received byte (DESIGN CHOICE, notes/assumptions/12.md: the two encodings
are separate in the hardware, so no decoder of the block ever faces this choice). -/
def tableCode (nbits w : Nat) : Option Code :=
  if nbits ≤ 4 then (if w < 16 then some (.event (BitVec.ofNat 4 w)) else none)
  else if w < 16 then
    match decodeEvent Cfg.default.variant (BitVec.ofNat 4 w) with
    | .ok _ => some (.event (BitVec.ofNat 4 w))
    | .error _ => some (.received (BitVec.ofNat 8 w))
  else if w < 256 then some (.received (BitVec.ofNat 8 w))
  else none

/-- The instruction the decoder reads from `w`, in a block of the reset configuration's variant. -/
def decodeTableWord (nbits w : Nat) : Option Instr :=
  match tableCode nbits w with
  | none => none
  | some c =>
    match decodeCode Cfg.default.variant c with
    | .ok i => some i
    | .error _ => none

/-! ## Pseudo-events and trace syntax -/

/-- The bits of a byte in the order they travel: most significant first (20_memory.md R56). -/
def bitsMsbFirst (b : Byte) : List Bool :=
  [b.getLsbD 7, b.getLsbD 6, b.getLsbD 5, b.getLsbD 4, b.getLsbD 3, b.getLsbD 2, b.getLsbD 1, b.getLsbD 0]

/-- `XFER b`: eight clock pulses (R80). -/
def xfer (b : Byte) : List Instr := (bitsMsbFirst b).map .sck

/-- The `BYTE_COMPLETE` of a variant (R144). -/
def byteComplete : Variant → Instr
  | .A => .byteCompleteA
  | .B => .byteCompleteB

/-- `XFER_BC b`: a unit whose handler runs before the next pulse (R80). -/
def xferBc (v : Variant) (b : Byte) : List Instr := xfer b ++ [byteComplete v]

/-- `TICK_C n`: a tick that starts a mix, committed at once (R80). -/
def tickC (n : Bool) : List Instr := [.tick n, .mixCommit]

/-- The event words of a list of events (R78); a received-byte row has none. -/
def eventWords : List Instr → List EventWord
  | [] => []
  | i :: rest =>
    match encode i with
    | .event w => w :: eventWords rest
    | .received _ => eventWords rest

/-- The line of a trace that names an event (R79); a received-byte row has none. -/
def traceLine : Instr → Option String
  | .tick n => some (if n then "TICK 1" else "TICK 0")
  | .mixCommit => some "MIX_COMMIT"
  | .csFall => some "CS_FALL"
  | .csRise => some "CS_RISE"
  | .sck d => some (if d then "SCK 1" else "SCK 0")
  | .byteCompleteA => some "BYTE_COMPLETE"
  | .byteCompleteB => some "BYTE_COMPLETE"
  | .reset => some "RESET"
  | .ctrl1 | .ctrl2 | .data00 | .data03 | .data04to07 _ | .data08to0F _ | .data10to1F _ | .data20to3F _
  | .data40to7F _ | .data80toFF _ => none

/-- The nine events a block of variant `v` has. -/
def allEvents (v : Variant) : List Instr :=
  [.tick false, .tick true, .mixCommit, .csFall, .csRise, .sck false, .sck true, byteComplete v, .reset]

/-- The event a line of a trace names (R79); the text of a comment is taken off before. -/
def parseLine (v : Variant) (line : String) : Option Instr :=
  (allEvents v).find? (fun i => traceLine i == some line)

end Sys2Proof
end

