-- ==== Sys2Proof/Machine/State.lean ====
section
/-! DEFINITION. The state of the block: the ten elements of 10_state.md, and five fields of the model's own (the
parameters, the events still to come, the position in the trace, what was emitted, the number of free draws). -/

namespace Sys2Proof.Machine

/-- `LATCH` (R21): a captured bit, or the sentinel `EMPTY`. The unreachable 0b11 cannot be written
(notes/assumptions/9.md). -/
inductive Latch where
  | captured (b : Bool)
  | empty
deriving DecidableEq, Repr

/-- The 2-bit encoding of `LATCH` (R21, D6). -/
def Latch.bits : Latch → BitVec 2
  | .captured false => 0b00#2
  | .captured true => 0b01#2
  | .empty => 0b10#2

/-- `SEL` (R25, R120): the state of the Transport State Machine. -/
inductive Transport where
  | idle
  | active
deriving DecidableEq, Repr

/-- The bit of `SEL` (R25): 0 is `Idle`, 1 is `Active`. -/
def Transport.bit : Transport → Bool
  | .idle => false
  | .active => true

/-- What a clock pulse puts on `DO` (R13): a bit, or `Z` when the line is not driven. -/
inductive DoLevel where
  | bit (b : Bool)
  | z
deriving DecidableEq, Repr

/-- A mix in flight (R32): `new` computed from `old = RR` and not yet written whole. -/
structure InFlight where
  old : Word
  new : Word
deriving DecidableEq, Repr

/-- The whole state. -/
structure State where
  /-- The block's parameters; no step changes them (R3, R34). -/
  cfg : Cfg
  /-- `RR`, the Random Register (R20). -/
  rr : Word
  /-- `LATCH`, the SampleLatch (R21). -/
  latch : Latch
  /-- `MIX`, the in-flight mix (R32). -/
  mix : Option InFlight
  /-- `COUNT`, the Variant-A pending byte count (R22). -/
  count : BitVec 2
  /-- `SHIFT`, the full-duplex shift buffer (R23). -/
  shift : Byte
  /-- `SEL`, the transport state (R25). -/
  sel : Transport
  /-- `CNT`, the bit counter (R26). -/
  cnt : BitVec 3
  /-- `OVF`, the overflow/completion flag (R27). -/
  ovf : Bool
  /-- `BC_IE`, the byte-complete interrupt enable (R28). -/
  bcIe : Bool
  /-- `DO_EN`, the output driver enable (R29). -/
  doEn : Bool
  /-- The model's own: the event words still to come, next first (R76, R187; notes/assumptions/1.md). -/
  trace : List EventWord
  /-- The model's own: the index of the current event in the trace (R24; where it starts: notes/assumptions/19.md). -/
  index : Nat
  /-- The model's own: the values emitted on `DO`, oldest first (R13, R187; notes/assumptions/7.md). -/
  out : List DoLevel
  /-- The model's own: how many free values have been drawn (R13; notes/assumptions/8.md). -/
  draws : Nat
deriving DecidableEq, Repr

/-- There is no fault: the block raises no exception and records none (R170; 93_implementation_defined.md: "No
behaviour of the block is a `fault`"). -/
inductive Fault
deriving DecidableEq, Repr

/-- Why a step is refused. -/
inductive Refusal where
  /-- Raised by an arm of `exec` for an instruction that has no meaning yet. Safe: the model stops. No arm raises it. -/
  | notModelled (mnemonic : String)
  /-- Raised by `step` for a word of the trace that spells no operation (R77, D20: "A model refuses a trace that
  contains one"). Safe: the hardware has no such event. -/
  | noSuchEvent (r : Reject)
  /-- Raised by every meaning through `takeEvent` when the operation is not enabled in the state (R77: "also spells no
  step: such a trace is not an execution of the block"; R174 says when each is enabled). Safe: the hardware has no such
  event in that state. -/
  | notEnabled (i : Instr)
deriving DecidableEq, Repr

/-- The state right after `RESET` of a block with parameters `c`, before the events `events` (R200, R201). `SHIFT` is
the first free byte (R200 `draw_byte()`; notes/assumptions/6.md); in Variant B, which has no `COUNT`, the field is 0
(notes/assumptions/10.md). The position starts at 0 here, so the power-on `RESET` itself is not counted and the first
event after it has index 0 (DESIGN CHOICE: R24 gives the index no first value; notes/assumptions/19.md). -/
def State.start (c : Cfg) (events : List EventWord) : State :=
  { cfg := c
    rr := c.seed
    latch := .empty
    mix := none
    count := 0#2
    shift := Config.freeByte 0
    sel := .idle
    cnt := 0#3
    ovf := false
    bcIe := false
    doEn := false
    trace := events
    index := 0
    out := []
    draws := 1 }

/-- The machine right after reset: the default parameters (R10), and no event yet. -/
def State.reset : State := State.start Cfg.default []

end Sys2Proof.Machine
end

