-- ==== Sys2Proof/Machine/Operands.lean ====
section
/-! DEFINITION. The operand forms: the received byte and its count operand (R71, R72), the byte read of the Random
Register, torn inside a mix window (R52), and the free draws (R13). -/

namespace Sys2Proof.Machine

/-- The received byte of a unit is a control byte (R72). -/
def isControl (rx : Byte) : Bool := rx == 0x01#8 || rx == 0x02#8

/-- The count operand `rx[1:0]` of a control byte (R72). -/
def countOperand (rx : Byte) : BitVec 2 := rx.extractLsb' 0 2

/-- Byte `k` of a register value, `r[8k+7:8k]` (R52, D10). -/
def byteOf (r : Word) (k : BitVec 2) : Byte := r.extractLsb' (8 * k.toNat) 8

/-- Bit `i` of a byte, alone in its place. -/
def bitAt (b : Bool) (i : Nat) : Byte := (BitVec.ofBool b).setWidth 8 <<< i

/-- The choices `c` of a torn read (R52): bit `i` is the free bit of draw `d + i`, for `i < n`. -/
def drawMask (d : Nat) : Nat → Byte
  | 0 => 0#8
  | n + 1 => drawMask d n ||| bitAt (Config.freeBit (d + n)) n

/-- Bit by bit, the old byte where the choice is 0 and the new byte where it is 1 (R52). -/
def tornByte (choice old new : Byte) : Byte := (old &&& ~~~choice) ||| (new &&& choice)

/-- `ReadRRByte(k)` (R52): the byte of `RR`, or a torn byte while a mix is in flight. -/
def readRRByte (k : BitVec 2) (s : State) : Byte :=
  match s.mix with
  | none => byteOf s.rr k
  | some m => tornByte (drawMask s.draws 8) (byteOf m.old k) (byteOf m.new k)

/-- The draw counter after a read: a torn read draws eight bits (R52), a whole one none. -/
def drawsAfterRead (s : State) : Nat :=
  match s.mix with
  | none => s.draws
  | some _ => s.draws + 8

/-- `{SHIFT[6:0], d}` (R141): the buffer moved up by one place, with `d` at bit 0. -/
def shiftIn (x : Byte) (d : Bool) : Byte := x.extractLsb' 0 7 ++ BitVec.ofBool d

/-- The value a clock pulse puts on `DO` (R141): `SHIFT[7]` while the driver is on, else `Z`. -/
def outputLevel (s : State) : DoLevel := if s.doEn then .bit (s.shift.getLsbD 7) else .z

end Sys2Proof.Machine
end

