-- ==== Sys2Proof/Machine/Flags.lean ====
section
/-! DEFINITION. The flag `OVF` and the conditions read from flags: the end of a unit (R141, R142), the clear (R151),
the pending byte-complete interrupt (R144, R172). -/

namespace Sys2Proof.Machine

/-- `OVF <- 0` (R151, R121). -/
def clearOvf (s : State) : State := { s with ovf := false }

/-- The bit counter after one more bit: it wraps from 7 to 0 (R26, R141). -/
def cntNext (cnt : BitVec 3) : BitVec 3 := if cnt = 7#3 then 0#3 else cnt + 1#3

/-- `OVF` after one more bit: set by the eighth, else as it was (R141). -/
def ovfNext (cnt : BitVec 3) (ovf : Bool) : Bool := if cnt = 7#3 then true else ovf

/-- The byte-complete interrupt is pending and enabled (R144, R172). -/
def handlerReady (s : State) : Bool := s.ovf && s.bcIe

end Sys2Proof.Machine
end

