-- ==== Sys2Proof/Machine/Ops.lean ====
section
/-! DEFINITION. The named operations over the state, when each operation is enabled (R174), and taking an event
(R177), which every meaning goes through. -/

namespace Sys2Proof.Machine

/-! ## The entropy path -/

/-- `TAP_A` of the mixing function (R10, R105). -/
abbrev tapA : Nat := 0

/-- `TAP_B` of the mixing function (R10, R105). -/
abbrev tapB : Nat := 3

/-- `TOP = N - 1`, the injected bit position (R10, R105). -/
abbrev topBit : Nat := 24

/-- The bit a mix injects: the input XORed with the two taps of the value before the shift (R105). -/
def feedback (r : Word) (b : Bool) : Bool := b ^^ r.getLsbD tapA ^^ r.getLsbD tapB

/-- `Mix(r, b)` (R105). -/
def mixFn (r : Word) (b : Bool) : Word :=
  (r >>> 1) ||| ((BitVec.ofBool (feedback r b)).setWidth 32 <<< topBit)

/-- A mix of the bit `e`: written whole in this step when `ATOMIC_MIX`, else in flight until `MIX_COMMIT` (R106). -/
def startMix (e : Bool) (s : State) : State :=
  if s.cfg.atomicMix then { s with rr := mixFn s.rr e }
  else { s with mix := some { old := s.rr, new := mixFn s.rr e } }

/-- The end of a mix's write (R108). -/
def commitMix (s : State) : State :=
  match s.mix with
  | none => s
  | some m => { s with rr := m.new, mix := none }

/-! ## The transport path -/

/-- `LoadShift(v)` (R145). -/
def loadShift (v : Byte) (s : State) : State := { s with shift := v }

/-- `LoadShift(ReadRRByte(k))` with the draws of the read (R52, R145). -/
def loadRandom (k : BitVec 2) (s : State) : State :=
  { loadShift (readRRByte k s) s with draws := drawsAfterRead s }

/-- `emit(o)` (R13). -/
def emit (o : DoLevel) (s : State) : State := { s with out := s.out ++ [o] }

/-- One bit exchanged: `SHIFT[7]` out, `d` in at bit 0, and the unit counted on (R141). -/
def exchangeBit (d : Bool) (s : State) : State :=
  { s with
    shift := shiftIn s.shift d
    cnt := cntNext s.cnt
    ovf := ovfNext s.cnt s.ovf }

/-- The Variant-A handler on a control byte: the count is replaced and nothing is loaded (R146). -/
def controlEffect (n : BitVec 2) (s : State) : State := clearOvf { s with count := n }

/-- The Variant-A handler on any other byte: the next byte is loaded if one is pending (R146-R148). -/
def dataEffect (s : State) : State :=
  clearOvf (if s.count = 0#2 then s else { loadRandom (s.count - 1#2) s with count := s.count - 1#2 })

/-! ## Taking an event -/

/-- The operation is enabled in the state (R174). `BYTE_COMPLETE` belongs to one variant (R144); a row of the received
byte is the Variant-A handler's run on that very byte, so `SHIFT` must hold it (R71; notes/assumptions/11.md). -/
def enabled (i : Instr) (s : State) : Bool :=
  match i with
  | .tick _ => s.mix.isNone
  | .mixCommit => s.mix.isSome
  | .csFall | .csRise | .sck _ | .reset => true
  | .byteCompleteA => decide (s.cfg.variant = .A) && handlerReady s
  | .byteCompleteB => decide (s.cfg.variant = .B) && handlerReady s
  | .ctrl1 | .ctrl2 | .data00 | .data03 | .data04to07 _ | .data08to0F _ | .data10to1F _ | .data20to3F _
  | .data40to7F _ | .data80toFF _ =>
    decide (s.cfg.variant = .A) && handlerReady s && decide (encode i = .received s.shift)

/-- Taking an event: it saves no state and changes no mode, mask or stack, and its handler runs whole or not at all
(R177, R178). An event that is not enabled spells no step and is refused (R77). -/
def takeEvent (i : Instr) (handler : State → State) (s : State) : Host.Outcome State Fault Refusal :=
  if enabled i s then .next (handler s) else .refused (.notEnabled i)

end Sys2Proof.Machine
end

