-- ==== Sys2Proof/Machine/ByteComplete.lean ====
section
/-! DEFINITION. The byte-complete handler: one rule per variant (R146, R150), and the ten rows of the byte that the
Variant-A rule decodes (R72, R73). -/

namespace Sys2Proof.Machine

/-- The Variant-A handler (R146): a control byte sets the count, any other byte loads the next one requested. -/
def handlerA (s : State) : State :=
  let rx := s.shift
  if isControl rx then controlEffect (countOperand rx) s else dataEffect s

/-- The Variant-B handler (R150): the low byte of `RR` is loaded, whatever was received. -/
def handlerB (s : State) : State := clearOvf (loadRandom 0#2 s)

/-- `BYTE_COMPLETE` in Variant A (R146). -/
def execByteCompleteA (s : State) : Host.Outcome State Fault Refusal := takeEvent .byteCompleteA handlerA s

/-- `BYTE_COMPLETE` in Variant B (R150). -/
def execByteCompleteB (s : State) : Host.Outcome State Fault Refusal := takeEvent .byteCompleteB handlerB s

/-- `CTRL 1`: received byte 0x01 sets `COUNT` to 1 (R72, R146). -/
def execCtrl1 (s : State) : Host.Outcome State Fault Refusal :=
  takeEvent .ctrl1 (controlEffect (countOperand 0x01#8)) s

/-- `CTRL 2`: received byte 0x02 sets `COUNT` to 2 (R72, R146). -/
def execCtrl2 (s : State) : Host.Outcome State Fault Refusal :=
  takeEvent .ctrl2 (controlEffect (countOperand 0x02#8)) s

/-- `DATA 0x00`: a data clock (R73, R146). -/
def execData00 (s : State) : Host.Outcome State Fault Refusal := takeEvent .data00 dataEffect s

/-- `DATA 0x03`: a data clock (R73, R146). -/
def execData03 (s : State) : Host.Outcome State Fault Refusal := takeEvent .data03 dataEffect s

/-- `DATA 0x04-0x07`: a data clock (R73, R146). -/
def execData04to07 (x : BitVec 2) (s : State) : Host.Outcome State Fault Refusal :=
  takeEvent (.data04to07 x) dataEffect s

/-- `DATA 0x08-0x0F`: a data clock (R73, R146). -/
def execData08to0F (x : BitVec 3) (s : State) : Host.Outcome State Fault Refusal :=
  takeEvent (.data08to0F x) dataEffect s

/-- `DATA 0x10-0x1F`: a data clock (R73, R146). -/
def execData10to1F (x : BitVec 4) (s : State) : Host.Outcome State Fault Refusal :=
  takeEvent (.data10to1F x) dataEffect s

/-- `DATA 0x20-0x3F`: a data clock (R73, R146). -/
def execData20to3F (x : BitVec 5) (s : State) : Host.Outcome State Fault Refusal :=
  takeEvent (.data20to3F x) dataEffect s

/-- `DATA 0x40-0x7F`: a data clock (R73, R146). -/
def execData40to7F (x : BitVec 6) (s : State) : Host.Outcome State Fault Refusal :=
  takeEvent (.data40to7F x) dataEffect s

/-- `DATA 0x80-0xFF`: a data clock (R73, R146). -/
def execData80toFF (x : BitVec 7) (s : State) : Host.Outcome State Fault Refusal :=
  takeEvent (.data80toFF x) dataEffect s

end Sys2Proof.Machine
end

