-- ==== Sys2Proof/Machine/Entropy.lean ====
section
/-! DEFINITION. The entropy path: `TICK n` and `MIX_COMMIT` (40_entropy.md). -/

namespace Sys2Proof.Machine

/-- `TICK n` while enabled (R101, R102, R106): latch the sample, keep the latest of an equal pair, or mix `prev` and
empty the latch. -/
def tickEffect (n : Bool) (s : State) : State :=
  match s.latch with
  | .empty => { s with latch := .captured n }
  | .captured prev =>
    if n = prev then { s with latch := .captured n }
    else startMix prev { s with latch := .empty }

/-- `TICK n` (R106). -/
def execTick (n : Bool) (s : State) : Host.Outcome State Fault Refusal := takeEvent (.tick n) (tickEffect n) s

/-- `MIX_COMMIT` (R108). -/
def execMixCommit (s : State) : Host.Outcome State Fault Refusal := takeEvent .mixCommit commitMix s

end Sys2Proof.Machine
end

