-- ==== Sys2Proof/Machine/Power.lean ====
section
/-! DEFINITION. Power-on: `RESET` (70_reset_and_hazards.md R200). -/

namespace Sys2Proof.Machine

/-- Every element at its reset value (R200, R201); `SHIFT` is the next free byte. The parameters, the events to come
and what was emitted belong to the run, not to the block, and stay (notes/assumptions/13.md). -/
def resetEffect (s : State) : State :=
  { s with
    rr := s.cfg.seed
    latch := .empty
    mix := none
    count := if s.cfg.variant = .A then 0#2 else s.count
    sel := .idle
    cnt := 0#3
    ovf := false
    bcIe := false
    doEn := false
    shift := Config.freeByte s.draws
    draws := s.draws + 1 }

/-- `RESET` (R200). -/
def execReset (s : State) : Host.Outcome State Fault Refusal := takeEvent .reset resetEffect s

end Sys2Proof.Machine
end

