-- ==== Sys2Proof/Machine/Serial.lean ====
section
/-! DEFINITION. The serial engine: `SCK d` (42_byte_shifter.md R140-R143). -/

namespace Sys2Proof.Machine

/-- One clock pulse (R141): the output bit is emitted; while `OVF = 1` the engine is stalled and nothing else happens
(R143). -/
def pulseEffect (d : Bool) (s : State) : State :=
  if s.ovf then emit (outputLevel s) s else exchangeBit d (emit (outputLevel s) s)

/-- `SCK d` (R141). -/
def execSck (d : Bool) (s : State) : Host.Outcome State Fault Refusal := takeEvent (.sck d) (pulseEffect d) s

end Sys2Proof.Machine
end

