-- ==== Sys2Proof/Machine/Transport.lean ====
section
/-! DEFINITION. The chip-select edge handler: `CS_FALL` and `CS_RISE` (41_transport.md). -/

namespace Sys2Proof.Machine

/-- The re-arm of a falling edge (R121), with the Variant-A count reset (R123). -/
def selectEffect (s : State) : State :=
  { s with
    sel := .active
    cnt := 0#3
    ovf := false
    bcIe := true
    doEn := true
    count := if s.cfg.variant = .A ∧ s.cfg.countResetOnSelect = true then 0#2 else s.count }

/-- The disarm of a rising edge (R124, R125). -/
def deselectEffect (s : State) : State := { s with sel := .idle, bcIe := false, doEn := false }

/-- `CS_FALL` (R121). -/
def execCsFall (s : State) : Host.Outcome State Fault Refusal := takeEvent .csFall selectEffect s

/-- `CS_RISE` (R124). -/
def execCsRise (s : State) : Host.Outcome State Fault Refusal := takeEvent .csRise deselectEffect s

end Sys2Proof.Machine
end

