-- ==== Sys2Proof/Machine/Dispatch.lean ====
section
/-! DEFINITION. One arm per instruction: a direct call of its meaning. -/

namespace Sys2Proof.Machine

def exec (i : Instr) (s : State) : Host.Outcome State Fault Refusal :=
  match i with
  | .tick n => Sys2Proof.Machine.execTick n s
  | .mixCommit => Sys2Proof.Machine.execMixCommit s
  | .csFall => Sys2Proof.Machine.execCsFall s
  | .csRise => Sys2Proof.Machine.execCsRise s
  | .sck d => Sys2Proof.Machine.execSck d s
  | .byteCompleteA => Sys2Proof.Machine.execByteCompleteA s
  | .byteCompleteB => Sys2Proof.Machine.execByteCompleteB s
  | .reset => Sys2Proof.Machine.execReset s
  | .ctrl1 => Sys2Proof.Machine.execCtrl1 s
  | .ctrl2 => Sys2Proof.Machine.execCtrl2 s
  | .data00 => Sys2Proof.Machine.execData00 s
  | .data03 => Sys2Proof.Machine.execData03 s
  | .data04to07 x => Sys2Proof.Machine.execData04to07 x s
  | .data08to0F x => Sys2Proof.Machine.execData08to0F x s
  | .data10to1F x => Sys2Proof.Machine.execData10to1F x s
  | .data20to3F x => Sys2Proof.Machine.execData20to3F x s
  | .data40to7F x => Sys2Proof.Machine.execData40to7F x s
  | .data80toFF x => Sys2Proof.Machine.execData80toFF x s

end Sys2Proof.Machine
end

