-- ==== Sys2Proof/Machine/Fetch.lean ====
section
/-! DEFINITION. Taking the next event from the trace (R76, R24), and putting one there. -/

namespace Sys2Proof.Machine

/-- The trace moved on by one event (R24). -/
def popEvent (rest : List EventWord) (s : State) : State := { s with trace := rest, index := s.index + 1 }

/-- The state with what an event waits for brought about (R174): a tick waits for the mix in flight to be committed; a
commit needs a mix (here one that changes nothing, R108); the handler needs a completed unit of a selected block (R31,
R144). -/
def meetCondition (i : Instr) (s : State) : State :=
  match i with
  | .tick _ => commitMix s
  | .mixCommit => { s with mix := some { old := s.rr, new := s.rr } }
  | .csFall | .csRise | .sck _ | .reset => s
  | .byteCompleteA | .byteCompleteB | .ctrl1 | .ctrl2 | .data00 | .data03 | .data04to07 _ | .data08to0F _
  | .data10to1F _ | .data20to3F _ | .data40to7F _ | .data80toFF _ =>
    { s with ovf := true, sel := .active, bcIe := true, doEn := true }

/-- The state with an event's enabling condition made true: an event reaches the block only where it is enabled (R77), so
placing one takes this. It changes nothing where the event is enabled already. -/
def makeReady (i : Instr) (s : State) : State := if enabled i s then s else meetCondition i s

/-- The state of a Variant-A block that holds `b` as the byte just received (R71, R142). -/
def receive (b : Byte) (s : State) : State := { s with shift := b, cfg := { s.cfg with variant := .A } }

/-- The state in which the very next step runs the encoded instruction: an event word stands at the head of the trace;
a received byte stands in `SHIFT` of a Variant-A block whose handler is the next event (R71). -/
def placeCode (c : Code) (s : State) : State :=
  match c with
  | .event w =>
    match decodeEvent s.cfg.variant w with
    | .ok i => { makeReady i s with trace := w :: s.trace }
    | .error _ => { s with trace := w :: s.trace }
  | .received b => { makeReady .byteCompleteA (receive b s) with trace := 0b1010#4 :: s.trace }

/-- The state with a word of the opcode table placed where the next step takes its event. -/
def placeTableWord (s : State) (nbits w : Nat) : State :=
  match tableCode nbits w with
  | none => s
  | some c => placeCode c s

end Sys2Proof.Machine
end

