-- ==== Sys2Proof/Machine/Step.lean ====
section
/-! DEFINITION. One step: the next event word of the trace is taken, decoded and executed (R14, R76). -/

namespace Sys2Proof.Machine

/-- One step of the block. A word that spells no operation is refused (R77). With no event left the block waits
(R202, R187: "The block never stops"; notes/assumptions/2.md). -/
def step (s : State) : Host.Outcome State Fault Refusal :=
  match s.trace with
  | [] => .next s
  | w :: rest =>
    match decodeEvent s.cfg.variant w with
    | .ok i => exec i (popEvent rest s)
    | .error r => .refused (.noSuchEvent r)

/-- The state with a word of the opcode table stored where `step` takes its next event (notes/assumptions/3.md). -/
def State.withFetchWord (s : State) (nbits w : Nat) : State := placeTableWord s nbits w

end Sys2Proof.Machine
end

