-- ==== Sys2Proof/Safety.lean ====
section
/-! DEFINITION. The terms claims are stated in: the invariant of the reachable states, runs (R187), the bits a run sends
to the mixer (R113), the entropy part of a state (R60), and fairness (R185). -/

namespace Sys2Proof.Machine

/-- What holds in every reachable state: `SEED` is legal (R20); bits 31:25 of `RR` are zero (R110), in a mix in flight
too; a mix in flight has `old = RR` and `new = Mix(RR, e)` for an emitted bit `e` (R106, R108), and there is none when
`ATOMIC_MIX` (R32, R53); `COUNT` is not 3 (R22); `BC_IE = DO_EN = SEL` (R31). -/
structure Invariant (s : State) : Prop where
  seed : s.cfg.Legal
  padding : s.rr.extractLsb' 25 7 = 0#7
  inFlight : ∀ m, s.mix = some m → m.old = s.rr ∧ ∃ e, m.new = mixFn s.rr e
  atomic : s.cfg.atomicMix = true → s.mix = none
  count : s.count ≠ 3#2
  enable : s.bcIe = s.sel.bit
  driver : s.doEn = s.sel.bit

/-- The execution of a list of instructions from any state, one after another, up to the first refusal. A run of the
block (R187) is one from a reset state: `IsFiniteRun`. -/
def runInstrs : List Instr → State → Host.Outcome State Fault Refusal
  | [], s => .next s
  | i :: rest, s =>
    match exec i s with
    | .next t => runInstrs rest t
    | .fault r => .fault r
    | .refused r => .refused r

/-- The bit a step sends to the mixer (R101, R102): `prev` at a tick whose sample differs from the latched one. -/
def emittedBit (i : Instr) (s : State) : Option Bool :=
  match i, s.latch with
  | .tick n, .captured prev => if n = prev then none else some prev
  | _, _ => none

/-- The bits a run sends to the mixer, in order (R113). -/
def emittedBits : List Instr → State → List Bool
  | [], _ => []
  | i :: rest, s =>
    match exec i s with
    | .next t => (emittedBit i s).toList ++ emittedBits rest t
    | .fault _ => []
    | .refused _ => []

/-- The value `RR` has once the mix in flight, if any, is committed. -/
def settledRR (s : State) : Word :=
  match s.mix with
  | none => s.rr
  | some m => m.new

/-- The entropy path's part of the state (R184): the parameters, `RR`, `LATCH` and `MIX`. -/
def entropyPart (s : State) : Cfg × Word × Latch × Option InFlight := (s.cfg, s.rr, s.latch, s.mix)

/-- The state outside the entropy path: the parameters, the serial engine, the count and the environment's fields. -/
def transportPart (s : State) :
    Cfg × Transport × BitVec 3 × Bool × Bool × Bool × BitVec 2 × Byte :=
  (s.cfg, s.sel, s.cnt, s.ovf, s.bcIe, s.doEn, s.count, s.shift)

/-- The levels of a byte sent while the driver is on, first bit first (R56, R71). -/
def sentByte (b : Byte) : List DoLevel := (bitsMsbFirst b).map .bit

/-- A selected block at a unit boundary: what `CS_FALL` leaves (R121) and every handler restores. -/
def UnitBoundary (s : State) : Prop := s.cnt = 0#3 ∧ s.ovf = false ∧ s.bcIe = true ∧ s.doEn = true

/-- A reset state (R187, R200, R201): what `RESET` leaves of a block with legal parameters, `SHIFT` being any byte, with
nothing emitted yet and any events to come. -/
def State.IsReset (s : State) : Prop :=
  ∃ (c : Cfg) (events : List EventWord) (x : Byte) (d : Nat),
    c.Legal ∧ s = { State.start c events with shift := x, draws := d }

/-- A finite run (R187): enabled steps, each an event of the trace, from the reset state `s` to `t`. -/
structure IsFiniteRun (is : List Instr) (s t : State) : Prop where
  start : s.IsReset
  event : ∀ i ∈ is, i.isEvent = true
  steps : runInstrs is s = .next t

/-- An infinite sequence of enabled steps, each an event of the trace, from any state. -/
structure IsExecution (σ : Nat → State) (ev : Nat → Instr) : Prop where
  event : ∀ k, (ev k).isEvent = true
  next : ∀ k, exec (ev k) (σ k) = .next (σ (k + 1))

/-- An infinite run (R187): an infinite sequence of enabled steps from a reset state. -/
structure IsRun (σ : Nat → State) (ev : Nat → Instr) : Prop extends IsExecution σ ev where
  start : (σ 0).IsReset

/-- The level a step emits on `DO`: a clock pulse emits one, no other event does (R13, R141). -/
def emittedLevel (i : Instr) (s : State) : Option DoLevel :=
  match i with
  | .sck _ => some (outputLevel s)
  | .tick _ | .mixCommit | .csFall | .csRise | .byteCompleteA | .byteCompleteB | .reset | .ctrl1 | .ctrl2 | .data00
  | .data03 | .data04to07 _ | .data08to0F _ | .data10to1F _ | .data20to3F _ | .data40to7F _ | .data80toFF _ => none

/-- The observation of a run (R187): the levels its clock pulses emit, in order, and the state after each step. -/
def observation : List Instr → State → List DoLevel × List State
  | [], _ => ([], [])
  | i :: rest, s =>
    match exec i s with
    | .next t => ((emittedLevel i s).toList ++ (observation rest t).1, t :: (observation rest t).2)
    | .fault _ => ([], [])
    | .refused _ => ([], [])

/-- An operation that stays enabled from some point on is taken after it (R185). -/
def WeaklyFair (i : Instr) (σ : Nat → State) (ev : Nat → Instr) : Prop :=
  ∀ k, (∀ j, k ≤ j → enabled i (σ j) = true) → ∃ j, k ≤ j ∧ ev j = i

/-- The fairness of R185, of an infinite sequence of steps: weak for the internal steps, and infinitely many ticks. -/
structure Fair (σ : Nat → State) (ev : Nat → Instr) : Prop where
  commit : WeaklyFair .mixCommit σ ev
  handlerA : WeaklyFair .byteCompleteA σ ev
  handlerB : WeaklyFair .byteCompleteB σ ev
  ticks : ∀ k, ∃ j n, k ≤ j ∧ ev j = .tick n

end Sys2Proof.Machine
end

