-- ==== Sys2Proof/Certificates/Slice0/Obligations.lean ====
section
/-! DEFINITION. The statements for the provers. A statement whose conclusion is `exec i s = .next { s with … }` gives the
whole frame: every field it does not name is unchanged. -/

open Sys2Proof Sys2Proof.Machine

/-! ## Encoding -/

/-- The event words of the table of 30_encoding.md section 3 (the spec's own encoding, D20), and the word 1010 by
variant (R144). -/
def Obligations.EventWordsDecode : Prop :=
  ∀ v : Variant,
    decodeEvent v 0b0000#4 = .ok (.tick false) ∧ decodeEvent v 0b0001#4 = .ok (.tick true) ∧
    decodeEvent v 0b0010#4 = .ok .mixCommit ∧ decodeEvent v 0b0100#4 = .ok .csFall ∧
    decodeEvent v 0b0110#4 = .ok .csRise ∧ decodeEvent v 0b1000#4 = .ok (.sck false) ∧
    decodeEvent v 0b1001#4 = .ok (.sck true) ∧ decodeEvent .A 0b1010#4 = .ok .byteCompleteA ∧
    decodeEvent .B 0b1010#4 = .ok .byteCompleteB ∧ decodeEvent v 0b1100#4 = .ok .reset

/-- A word that spells no operation, or one that is not enabled, is no step (30_encoding.md section 3, the spec's own
choice D20: "A model refuses a trace that contains one"). -/
def Obligations.NonStepsAreRefused : Prop :=
  ∀ (s : State) (w : EventWord) (rest : List EventWord), s.trace = w :: rest →
    (w ∈ [0b0011#4, 0b0101#4, 0b0111#4, 0b1011#4, 0b1101#4, 0b1110#4, 0b1111#4] →
      ∃ r, step s = .refused (.noSuchEvent r)) ∧
    (∀ i, decodeEvent s.cfg.variant w = .ok i → (¬ ∃ t, exec i (popEvent rest s) = .next t) →
      step s = .refused (.notEnabled i))

/-- Decoding the encoding of any instruction a block has gives the instruction back, at every value of its operands. -/
def Obligations.DecodeOfEncodeAgrees : Prop :=
  ∀ (v : Variant) (i : Instr), WellFormed v i = true → decodeCode v (encode i) = .ok i

/-- Encoding what was decoded gives the same bits back, and only instructions the block has are decoded. -/
def Obligations.EncodeOfDecodeAgrees : Prop :=
  ∀ (v : Variant) (c : Code) (i : Instr), decodeCode v c = .ok i → encode i = c ∧ WellFormed v i = true

/-- The ten match and mask rows of the received byte are disjoint and cover all 256 values, and the decoder gives the
one row that matches (30_encoding.md section 2; the spec marks the partition as derived). -/
def Obligations.ReceivedByteRowsPartition : Prop :=
  ∀ b : Byte,
    receivedRows.filter (fun r => decide (b &&& r.2 = r.1)) =
      [((tableRow (decodeReceived b)).2.2, (tableRow (decodeReceived b)).2.1)]

/-- `XFER b`, `XFER_BC b` and `TICK_C n` expand to the event words the spec gives (30_encoding.md section 4, D20). -/
def Obligations.PseudoEventsExpand : Prop :=
  ∀ (v : Variant) (b : Byte) (n : Bool),
    eventWords (xfer b) =
      [b.getLsbD 7, b.getLsbD 6, b.getLsbD 5, b.getLsbD 4, b.getLsbD 3, b.getLsbD 2, b.getLsbD 1, b.getLsbD 0].map
        (fun d => if d then 0b1001#4 else 0b1000#4) ∧
    eventWords (xferBc v b) = eventWords (xfer b) ++ [0b1010#4] ∧
    eventWords (tickC n) = [if n then 0b0001#4 else 0b0000#4, 0b0010#4]

/-! ## Step -/

/-- When the word at the head of the trace decodes to an instruction, the step is that instruction, executed in the
state whose trace has moved on by one event (position: R24). With no event left the block waits; that clause is the
model's choice, assumption log 2. -/
def Obligations.StepRunsDecodedEvent : Prop :=
  ∀ (s : State),
    (s.trace = [] → step s = .next s) ∧
    ∀ (w : EventWord) (rest : List EventWord) (i : Instr),
      s.trace = w :: rest → decodeEvent s.cfg.variant w = .ok i →
        step s = exec i { s with trace := rest, index := s.index + 1 }

/-- A word of the opcode table placed at the fetch is what the very next step runs, from any state, and it runs in that
very state but for its enabling condition and the position. An event word, given 4 bits or 8, is its event; a received
byte that spells no event is the Variant-A handler's run on it, which is the row of that byte (placing a word is the
model's choice, assumption logs 3, 11 and 12). What `makeReady` does is `PlacingOnlyEnables`. -/
def Obligations.PlacedTableWordRuns : Prop :=
  (∀ (s : State) (nbits : Nat) (w : EventWord) (i : Instr),
    nbits = 4 ∨ nbits = 8 → decodeEvent s.cfg.variant w = .ok i →
      step (s.withFetchWord nbits w.toNat) = exec i { makeReady i s with index := s.index + 1 } ∧
      ∃ t, exec i { makeReady i s with index := s.index + 1 } = .next t) ∧
  (∀ (s : State) (b : Byte),
    (∀ (w : EventWord) (i : Instr), w.toNat = b.toNat → decodeEvent .A w ≠ .ok i) →
      step (s.withFetchWord 8 b.toNat) =
        exec .byteCompleteA { makeReady .byteCompleteA (receive b s) with index := s.index + 1 } ∧
      step (s.withFetchWord 8 b.toNat) =
        exec (decodeReceived b) { makeReady .byteCompleteA (receive b s) with index := s.index + 1 } ∧
      ∃ t, step (s.withFetchWord 8 b.toNat) = .next t)

/-- Placing a word changes nothing where its operation is enabled; elsewhere it makes the enabling condition true and
changes nothing else: a tick finds the mix committed, a commit finds a mix that changes nothing, the handler finds a
completed unit of a selected block. A received byte stands in `SHIFT` of a Variant-A block (the model's choice,
assumption log 3). -/
def Obligations.PlacingOnlyEnables : Prop :=
  ∀ (s : State) (i : Instr),
    (enabled i s = true → makeReady i s = s) ∧
    (∀ n m, s.mix = some m → makeReady (.tick n) s = { s with rr := m.new, mix := none }) ∧
    (s.mix = none → makeReady .mixCommit s = { s with mix := some { old := s.rr, new := s.rr } }) ∧
    (i.isHandler = true → enabled i s = false →
      makeReady i s = { s with ovf := true, sel := .active, bcIe := true, doEn := true }) ∧
    (WellFormed s.cfg.variant i = true → i.isEvent = true → enabled i (makeReady i s) = true) ∧
    ∀ b : Byte, receive b s = { s with shift := b, cfg := { s.cfg with variant := .A } }

/-- The step runs an execution event by event: from a state whose trace holds the words of its events, as many steps
lead where the execution leads, each taking one word off the trace and moving the position on by one (30_encoding.md
section 3, 10_state.md section 2). From reset the position is then the number of steps (that it starts at 0 is the
model's choice, assumption log 19). -/
def Obligations.StepsFollowTheTrace : Prop :=
  ∀ (is : List Instr) (s t : State) (rest : List EventWord),
    (∀ i ∈ is, i.isEvent = true) → runInstrs is s = .next t →
      Host.Core.run core is.length { s with trace := eventWords is ++ rest } =
        .next { t with trace := rest, index := s.index + is.length }

/-- No step, and so no number of steps, changes the block's parameters. For `VARIANT` it is 00_scope.md section 1 ("no
event switches it at run time", the spec's own choice D2); `SEED`, `COUNT_RESET_ON_SELECT` and `ATOMIC_MIX` are
parameters of the step relation and no state (10_state.md section 5); that a `RESET` in the trace keeps all four is the
model's choice (assumption log 13), and so is the wait with no event left (log 2). -/
def Obligations.ConfigurationIsFixed : Prop :=
  ∀ (k : Nat) (s t : State), Host.Core.run core k s = .next t → t.cfg = s.cfg

/-- Each operation is enabled exactly where the spec says, and is refused by name elsewhere (60_exceptions.md section 3,
which the spec marks as derived). For the rows of the received byte the condition is the handler's own, on the byte that
`SHIFT` holds (assumption log 11). -/
def Obligations.OperationsEnabledExactly : Prop :=
  ∀ (i : Instr) (s : State),
    ((∃ t, exec i s = .next t) ↔
      match i with
      | .tick _ => s.mix = none
      | .mixCommit => s.mix ≠ none
      | .csFall | .csRise | .sck _ | .reset => True
      | .byteCompleteA => s.cfg.variant = .A ∧ s.ovf = true ∧ s.bcIe = true
      | .byteCompleteB => s.cfg.variant = .B ∧ s.ovf = true ∧ s.bcIe = true
      | .ctrl1 | .ctrl2 | .data00 | .data03 | .data04to07 _ | .data08to0F _ | .data10to1F _ | .data20to3F _
      | .data40to7F _ | .data80toFF _ =>
        s.cfg.variant = .A ∧ s.ovf = true ∧ s.bcIe = true ∧ encode i = .received s.shift) ∧
    ((¬ ∃ t, exec i s = .next t) → exec i s = .refused (.notEnabled i))

/-! ## The entropy path -/

/-- `TICK n`, whole: its word, where it is enabled, and what it does in each state of the latch, in both builds
(40_entropy.md sections 1 and 4; that the latched bit is emitted and that a tick in a mix window is no step are the
spec's own choices, D5 and D14). -/
def Obligations.TickFollowsItsRule : Prop :=
  (∀ (v : Variant) (n : Bool), decodeEvent v (if n then 0b0001#4 else 0b0000#4) = .ok (.tick n)) ∧
  ∀ (n : Bool) (s : State),
    (s.mix ≠ none → exec (.tick n) s = .refused (.notEnabled (.tick n))) ∧
    (s.mix = none →
      (s.latch = .empty → exec (.tick n) s = .next { s with latch := .captured n }) ∧
      (s.latch = .captured n → exec (.tick n) s = .next { s with latch := .captured n }) ∧
      (∀ prev, s.latch = .captured prev → prev ≠ n →
        (s.cfg.atomicMix = true →
          exec (.tick n) s = .next { s with latch := .empty, rr := mixFn s.rr prev }) ∧
        (s.cfg.atomicMix = false →
          exec (.tick n) s =
            .next { s with latch := .empty, mix := some { old := s.rr, new := mixFn s.rr prev } })))

/-- A tick empties the latch, and sends the latched bit to the mixer, exactly when the sample differs from the latched
bit; otherwise it starts no mix (the debiaser table and the Von Neumann law of 40_entropy.md section 2; that the bit sent is the latched one is the
spec's own choice, D5). -/
def Obligations.UnequalPairsMixAndNoOthers : Prop :=
  ∀ (n : Bool) (s t : State), exec (.tick n) s = .next t →
    ((∃ prev, s.latch = .captured prev ∧ prev ≠ n) ↔ t.latch = .empty) ∧
    (∀ prev, s.latch = .captured prev → prev ≠ n → settledRR t = mixFn s.rr prev) ∧
    (t.latch ≠ .empty → t.latch = .captured n ∧ t.rr = s.rr ∧ t.mix = none)

/-- From an empty latch, a sample, any number of equal ones and then a differing one send exactly one bit to the mixer:
the first sample (40_entropy.md section 2; the spec marks this as derived). -/
def Obligations.FirstSampleIsEmitted : Prop :=
  ∀ (s : State) (b : Bool) (k : Nat), s.latch = .empty → s.mix = none →
    ∃ t, runInstrs (List.replicate (k + 1) (.tick b) ++ [.tick (!b)]) s = .next t ∧
      emittedBits (List.replicate (k + 1) (.tick b) ++ [.tick (!b)]) s = [b] ∧
      t.latch = .empty ∧ settledRR t = mixFn s.rr b

/-- The mixing function: its formula, the two ends of the shift, and the corner cases and example the spec lists. -/
def Obligations.MixFormula : Prop :=
  (∀ (r : Word) (b : Bool),
    mixFn r b =
      ((r >>> 1) ||| ((BitVec.ofBool (b ^^ r.getLsbD 0 ^^ r.getLsbD 3)).setWidth 32 <<< 24)) ∧
    (mixFn r b).getLsbD 31 = false ∧
    (r.getLsbD 25 = false → (mixFn r b).getLsbD 24 = (b ^^ r.getLsbD 0 ^^ r.getLsbD 3))) ∧
  mixFn 0#32 false = 0#32 ∧ mixFn 0#32 true = 0x01000000#32 ∧ mixFn 1#32 true = 0#32 ∧
  mixFn 9#32 false = 4#32 ∧ mixFn 0x01555555#32 false = 0x01AAAAAA#32

/-- A mix keeps bits 31:25 zero, injects `f` at bit 24 and moves every other bit down by one place (40_entropy.md
section 5; the spec marks this as derived). -/
def Obligations.MixKeepsPaddingZero : Prop :=
  ∀ (r : Word) (b : Bool), r.extractLsb' 25 7 = 0#7 →
    (mixFn r b).extractLsb' 25 7 = 0#7 ∧
    (mixFn r b).getLsbD 24 = (b ^^ r.getLsbD 0 ^^ r.getLsbD 3) ∧
    ∀ i, i < 24 → (mixFn r b).getLsbD i = r.getLsbD (i + 1)

/-- From any register value, any 25-bit value (zero included) is reached by exactly one sequence of 25 input bits
(40_entropy.md section 5; the spec marks this as derived). -/
def Obligations.MixerIsControllable : Prop :=
  ∀ (r t : Word), r.extractLsb' 25 7 = 0#7 → t.extractLsb' 25 7 = 0#7 →
    ∃ bs : List Bool, bs.length = 25 ∧ bs.foldl mixFn r = t ∧
      ∀ bs' : List Bool, bs'.length = 25 → bs'.foldl mixFn r = t → bs' = bs

/-- Without input the low bits of successive register values satisfy `s(j+25) = s(j) ^ s(j+3)` (40_entropy.md
section 5). -/
def Obligations.UnperturbedRecurrence : Prop :=
  ∀ (r : Word) (j : Nat), r.extractLsb' 25 7 = 0#7 →
    ((fun x => mixFn x false)^[j + 25] r).getLsbD 0 =
      (((fun x => mixFn x false)^[j] r).getLsbD 0 ^^ ((fun x => mixFn x false)^[j + 3] r).getLsbD 0)

/-- Over any run without a reset, the register (once the mix in flight is committed) is the fold of the mixing function
over the emitted bits, whatever else happened (40_entropy.md section 5; the spec marks this as derived). -/
def Obligations.RegisterIsFoldOfEmittedBits : Prop :=
  ∀ (is : List Instr) (s t : State), (∀ i ∈ is, i ≠ .reset) → runInstrs is s = .next t →
    settledRR t = (emittedBits is s).foldl mixFn (settledRR s)

/-- `MIX_COMMIT`, whole: its word, where it is enabled, and what it does. -/
def Obligations.MixCommitFollowsItsRule : Prop :=
  (∀ v : Variant, decodeEvent v 0b0010#4 = .ok .mixCommit) ∧
  ∀ s : State,
    (s.mix = none → exec .mixCommit s = .refused (.notEnabled .mixCommit)) ∧
    (∀ m, s.mix = some m → exec .mixCommit s = .next { s with rr := m.new, mix := none })

/-- The entropy part of the state after a run depends on the entropy part before it and on the ticks, commits and resets
of the run alone: no transport event, no noise in its timing, changes it (20_memory.md section 5: "their only coupling
is the shared register"). -/
def Obligations.EntropyPathIgnoresTransport : Prop :=
  ∀ (is js : List Instr) (s u t v : State),
    entropyPart s = entropyPart u → is.filter Instr.isEntropy = js.filter Instr.isEntropy →
    runInstrs is s = .next t → runInstrs js u = .next v → entropyPart t = entropyPart v

/-- Neither path blocks the other: whether an entropy operation can run depends on the mix in flight alone, and whether
a transport operation can run on the transport part of the state alone (20_memory.md section 5). -/
def Obligations.PathsNeverBlockEachOther : Prop :=
  ∀ (i : Instr) (s u : State),
    (i.isEntropy = true → s.mix = u.mix →
      ((∃ t, exec i s = .next t) ↔ ∃ t, exec i u = .next t)) ∧
    (i.isEntropy = false → transportPart s = transportPart u →
      ((∃ t, exec i s = .next t) ↔ ∃ t, exec i u = .next t))

/-- In a fair infinite sequence of steps, from reset or from any other state, a mix in flight is committed, or the block
is reset (60_exceptions.md section 7; fairness is the spec's own choice D22). -/
def Obligations.PendingMixIsCommitted : Prop :=
  ∀ (σ : Nat → State) (ev : Nat → Instr), IsExecution σ ev → Fair σ ev →
    ∀ k, (σ k).mix ≠ none → ∃ j, k ≤ j ∧ (ev j = .mixCommit ∨ ev j = .reset)

/-! ## The byte read -/

/-- Every bit of `ReadRRByte(k)`: the register's, or inside a mix window the old or the new one as the free bit of that
draw chooses (20_memory.md section 2; the byte numbering and the per-bit choice are the spec's own, D10 and D12). It
holds for every value of the free bits. -/
def Obligations.ByteReadBits : Prop :=
  ∀ (k : BitVec 2) (s : State) (i : Nat), i < 8 →
    (s.mix = none → (readRRByte k s).getLsbD i = s.rr.getLsbD (8 * k.toNat + i)) ∧
    (∀ m, s.mix = some m →
      (readRRByte k s).getLsbD i =
        if Config.freeBit (s.draws + i) then m.new.getLsbD (8 * k.toNat + i) else m.old.getLsbD (8 * k.toNat + i))

/-- A torn read is `o ^ (m & (o ^ w))` for some `m`: it agrees with the old and the new byte where they agree
(20_memory.md section 2; the spec marks this as derived). -/
def Obligations.TornReadMixesOldAndNew : Prop :=
  ∀ (k : BitVec 2) (s : State) (m : InFlight), s.mix = some m →
    ∃ c : Byte,
      readRRByte k s =
        m.old.extractLsb' (8 * k.toNat) 8 ^^^
          (c &&& (m.old.extractLsb' (8 * k.toNat) 8 ^^^ m.new.extractLsb' (8 * k.toNat) 8))

/-- In a block with `ATOMIC_MIX` every byte read is the register's own byte, in every state that meets the invariant
(20_memory.md section 2, D12). -/
def Obligations.AtomicBuildNeverTears : Prop :=
  ∀ (k : BitVec 2) (s : State), Invariant s → s.cfg.atomicMix = true →
    readRRByte k s = s.rr.extractLsb' (8 * k.toNat) 8

/-! ## The chip-select edge handler -/

/-- `CS_FALL`, whole: its word, enabled always, and the re-arm in each configuration. -/
def Obligations.CsFallFollowsItsRule : Prop :=
  (∀ v : Variant, decodeEvent v 0b0100#4 = .ok .csFall) ∧
  ∀ s : State,
    (s.cfg.variant = .A ∧ s.cfg.countResetOnSelect = true →
      exec .csFall s =
        .next { s with sel := .active, cnt := 0#3, ovf := false, bcIe := true, doEn := true, count := 0#2 }) ∧
    (¬ (s.cfg.variant = .A ∧ s.cfg.countResetOnSelect = true) →
      exec .csFall s = .next { s with sel := .active, cnt := 0#3, ovf := false, bcIe := true, doEn := true })

/-- `CS_RISE`, whole: its word, enabled always, and the disarm; nothing else changes. -/
def Obligations.CsRiseFollowsItsRule : Prop :=
  (∀ v : Variant, decodeEvent v 0b0110#4 = .ok .csRise) ∧
  ∀ s : State, exec .csRise s = .next { s with sel := .idle, bcIe := false, doEn := false }

/-- After a select the transport is the same whatever it was before, but for `SHIFT` (41_transport.md section 4; the
spec marks this as derived). -/
def Obligations.SelectStartsAfresh : Prop :=
  ∀ s u : State, s.cfg = u.cfg → (s.cfg.variant = .A → s.cfg.countResetOnSelect = true) →
    ∃ t v, exec .csFall s = .next t ∧ exec .csFall u = .next v ∧
      t.sel = v.sel ∧ t.cnt = v.cnt ∧ t.ovf = v.ovf ∧ t.bcIe = v.bcIe ∧ t.doEn = v.doEn ∧
      (s.cfg.variant = .A → t.count = v.count) ∧ t.shift = s.shift ∧ v.shift = u.shift

/-- A transfer interrupted by a deselect does not resume (with `COUNT_RESET_ON_SELECT`): from a select on, non-command
bytes load nothing, and the master reads back the old `SHIFT` and then its own bytes (41_transport.md section 4 and
42_byte_shifter.md section 2; the spec marks both as derived or its own choice, D9 and D11). -/
def Obligations.NoResumptionAfterReselect : Prop :=
  ∀ (s : State) (fs : List Byte), s.cfg.variant = .A → s.cfg.countResetOnSelect = true →
    (∀ f ∈ fs, f ≠ 0x01#8 ∧ f ≠ 0x02#8) →
    ∃ t, runInstrs (.csFall :: fs.flatMap (xferBc .A)) s = .next t ∧
      t.count = 0#2 ∧ t.shift = fs.getLastD s.shift ∧
      t.out = s.out ++ ((s.shift :: fs).dropLast).flatMap sentByte

/-- What a deselect and a reselect leave of a pending count: with `COUNT_RESET_ON_SELECT` nothing, and the next
non-command byte loads nothing; without it the count, and that byte loads the next one (41_transport.md section 2 and
70_reset_and_hazards.md section 3; the parameter and its default are the spec's own choice, D11). The byte loaded is
byte `COUNT - 1` of `RR` and the count is then one less (42_byte_shifter.md section 2; the byte numbering is the spec's
own choice, D10); where nothing is loaded `SHIFT` keeps the received byte (its own choice, D9). -/
def Obligations.ReselectPolicy : Prop :=
  ∀ (s : State) (f : Byte), s.cfg.variant = .A → s.mix = none → s.count ≠ 0#2 → f ≠ 0x01#8 → f ≠ 0x02#8 →
    ∃ t, runInstrs ([.csRise, .csFall] ++ xferBc .A f) s = .next t ∧
      (s.cfg.countResetOnSelect = true → t.count = 0#2 ∧ t.shift = f) ∧
      (s.cfg.countResetOnSelect = false →
        t.count = s.count - 1#2 ∧ t.shift = s.rr.extractLsb' (8 * (s.count - 1#2).toNat) 8)

/-! ## The serial engine -/

/-- `SCK d`: its word, enabled always, one bit out and one in, the eighth bit of a unit sets `OVF`; while `OVF` is set
the pulse only shows `SHIFT[7]` or `Z` (42_byte_shifter.md section 1; the bit order, that the engine runs while deselected
and that it stalls on the flag are the spec's own choices, D7, D15 and D16). -/
def Obligations.SckExchangesOneBit : Prop :=
  (∀ (v : Variant) (d : Bool), decodeEvent v (if d then 0b1001#4 else 0b1000#4) = .ok (.sck d)) ∧
  ∀ (d : Bool) (s : State),
    (s.ovf = true →
      exec (.sck d) s =
        .next { s with out := s.out ++ [if s.doEn then DoLevel.bit (s.shift.getLsbD 7) else DoLevel.z] }) ∧
    (s.ovf = false →
      exec (.sck d) s =
        .next { s with
          out := s.out ++ [if s.doEn then DoLevel.bit (s.shift.getLsbD 7) else DoLevel.z]
          shift := (s.shift <<< 1) ||| (BitVec.ofBool d).setWidth 8
          cnt := if s.cnt = 7#3 then 0#3 else s.cnt + 1#3
          ovf := decide (s.cnt = 7#3) })

/-- Pulses while the flag is set change nothing but what the master sees: the same level on each (42_byte_shifter.md
section 1, D16). -/
def Obligations.StalledPulsesChangeNothing : Prop :=
  ∀ (ds : List Bool) (s : State), s.ovf = true →
    runInstrs (ds.map .sck) s =
      .next { s with
        out := s.out ++
          List.replicate ds.length (if s.doEn then DoLevel.bit (s.shift.getLsbD 7) else DoLevel.z) }

/-- A unit, from its boundary: the eight bits of the old `SHIFT` go out, most significant first, the received byte stands
in `SHIFT`, and `OVF` is set (30_encoding.md section 1 and 42_byte_shifter.md section 1; the bit order is the spec's own
choice, D7). -/
def Obligations.UnitExchangesAByte : Prop :=
  ∀ (b : Byte) (s : State), s.cnt = 0#3 → s.ovf = false →
    runInstrs (xfer b) s =
      .next { s with
        shift := b
        ovf := true
        out := s.out ++ if s.doEn then sentByte s.shift else List.replicate 8 DoLevel.z }

/-- A unit cut by a select after fewer than eight bits is abandoned: the count of bits returns to 0, no byte-complete
event occurs, and `SHIFT` keeps the bits shifted in (20_memory.md section 3; the spec marks this as derived). -/
def Obligations.CutUnitIsAbandoned : Prop :=
  ∀ (ds : List Bool) (s : State), ds.length < 8 → s.cnt = 0#3 → s.ovf = false →
    ∃ t, runInstrs (ds.map .sck ++ [.csFall]) s = .next t ∧ t.cnt = 0#3 ∧ t.ovf = false ∧
      t.shift = ds.foldl (fun (x : Byte) d => (x <<< 1) ||| (BitVec.ofBool d).setWidth 8) s.shift ∧
      t.rr = s.rr ∧ t.latch = s.latch ∧ t.mix = s.mix

/-! ## The byte-complete handler -/

/-- `BYTE_COMPLETE` in Variant A, whole: its word, where it is enabled, and what each received byte does. -/
def Obligations.ByteCompleteAFollowsItsRule : Prop :=
  decodeEvent .A 0b1010#4 = .ok .byteCompleteA ∧
  ∀ s : State, s.cfg.variant = .A →
    (¬ (s.ovf = true ∧ s.bcIe = true) → exec .byteCompleteA s = .refused (.notEnabled .byteCompleteA)) ∧
    (s.ovf = true → s.bcIe = true →
      (s.shift = 0x01#8 ∨ s.shift = 0x02#8 →
        exec .byteCompleteA s = .next { s with count := s.shift.extractLsb' 0 2, ovf := false }) ∧
      (s.shift ≠ 0x01#8 → s.shift ≠ 0x02#8 →
        (s.count ≠ 0#2 →
          exec .byteCompleteA s =
            .next { s with
              shift := readRRByte (s.count - 1#2) s
              count := s.count - 1#2
              ovf := false
              draws := if s.mix = none then s.draws else s.draws + 8 }) ∧
        (s.count = 0#2 → exec .byteCompleteA s = .next { s with ovf := false })))

/-- `BYTE_COMPLETE` in Variant B, whole: its word, where it is enabled, and the low byte loaded whatever was received. -/
def Obligations.ByteCompleteBFollowsItsRule : Prop :=
  decodeEvent .B 0b1010#4 = .ok .byteCompleteB ∧
  ∀ s : State, s.cfg.variant = .B →
    (¬ (s.ovf = true ∧ s.bcIe = true) → exec .byteCompleteB s = .refused (.notEnabled .byteCompleteB)) ∧
    (s.ovf = true → s.bcIe = true →
      (exec .byteCompleteB s =
        .next { s with
          shift := readRRByte 0#2 s
          ovf := false
          draws := if s.mix = none then s.draws else s.draws + 8 }) ∧
      ∀ b : Byte, exec .byteCompleteB { s with shift := b } = exec .byteCompleteB s)

/-- Every `BYTE_COMPLETE`, in both variants and on every path, clears `OVF` (42_byte_shifter.md section 2) and leaves the
entropy path alone (10_state.md section 5; the spec marks the matrix as derived). -/
def Obligations.HandlersClearTheFlag : Prop :=
  ∀ (i : Instr) (s t : State), i = .byteCompleteA ∨ i = .byteCompleteB → exec i s = .next t →
    t.ovf = false ∧ entropyPart t = entropyPart s

/-- The Variant-A handler is the row of the table that the received byte is in, and that row can then run
(30_encoding.md sections 1 and 2, 42_byte_shifter.md section 2; reading the rows as instructions is the model's choice,
assumption log 11). -/
def Obligations.HandlerRunsReceivedRow : Prop :=
  ∀ s : State, s.cfg.variant = .A → s.ovf = true → s.bcIe = true →
    exec .byteCompleteA s = exec (decodeReceived s.shift) s ∧
    ∃ t, exec (decodeReceived s.shift) s = .next t

/-- Exactly the bytes 1 and 2 are control bytes; each sets the count to itself, loads nothing and clears `OVF`
(30_encoding.md section 2, 42_byte_shifter.md section 2; reading the rows as instructions is the model's choice,
assumption log 11). -/
def Obligations.ControlBytesSetTheCount : Prop :=
  (∀ b : Byte, (decodeReceived b).isControlRow = true ↔ b = 0x01#8 ∨ b = 0x02#8) ∧
  (∀ b : Byte, b = 0x01#8 ∨ b = 0x02#8 → (b.extractLsb' 0 2).toNat = b.toNat) ∧
  ∀ s : State, s.cfg.variant = .A → s.ovf = true → s.bcIe = true →
    (s.shift = 0x01#8 → exec .ctrl1 s = .next { s with count := 1#2, ovf := false }) ∧
    (s.shift = 0x02#8 → exec .ctrl2 s = .next { s with count := 2#2, ovf := false })

/-- Every data clock (`data00`, `data03`, `data04to07`, `data08to0F`, `data10to1F`, `data20to3F`, `data40to7F`,
`data80toFF`) loads the next byte if the count is not zero, and else changes nothing but `OVF` (30_encoding.md section
2 and 42_byte_shifter.md section 2; that the received byte stays in `SHIFT` is the spec's own choice D9, and that the
row's byte is the one in `SHIFT` is assumption log 11). -/
def Obligations.DataBytesLoadIfPending : Prop :=
  ∀ (i : Instr) (s : State), i.isDataRow = true → encode i = .received s.shift →
    s.cfg.variant = .A → s.ovf = true → s.bcIe = true →
      (s.count = 0#2 → exec i s = .next { s with ovf := false }) ∧
      (s.count ≠ 0#2 →
        exec i s =
          .next { s with
            shift := readRRByte (s.count - 1#2) s
            count := s.count - 1#2
            ovf := false
            draws := if s.mix = none then s.draws else s.draws + 8 })

/-- The requested bytes: with a count of 2 the handler loads `RR[15:8]`, with a count of 1 `RR[7:0]` (42_byte_shifter.md
section 2; the byte numbering is the spec's own choice, D10). -/
def Obligations.RequestedBytesInOrder : Prop :=
  ∀ s : State, s.cfg.variant = .A → s.ovf = true → s.bcIe = true → s.mix = none →
    s.shift ≠ 0x01#8 → s.shift ≠ 0x02#8 →
      (s.count = 2#2 →
        exec .byteCompleteA s =
          .next { s with shift := s.rr.extractLsb' 8 8, count := 1#2, ovf := false }) ∧
      (s.count = 1#2 →
        exec .byteCompleteA s =
          .next { s with shift := s.rr.extractLsb' 0 8, count := 0#2, ovf := false })

/-- A deselect while the flag is set cancels the handler: until a select or a reset no handler can run, the flag stays
and no pulse changes `SHIFT` or the count (70_reset_and_hazards.md section 3; the spec marks this as derived). -/
def Obligations.DeselectCancelsHandler : Prop :=
  ∀ (is : List Instr) (s t : State), s.ovf = true → (∀ i ∈ is, i ≠ .csFall ∧ i ≠ .reset) →
    runInstrs (.csRise :: is) s = .next t →
      t.ovf = true ∧ t.bcIe = false ∧ t.shift = s.shift ∧ t.count = s.count ∧ (∀ i ∈ is, i.isHandler = false)

/-- A Variant-A session, from a select on and with no mix in flight: a request of `N` bytes takes `N + 2` units, in
which the master reads the old `SHIFT`, its own control byte, and the `N` low bytes of `RR`, most significant first
(42_byte_shifter.md section 2; the spec marks this as derived; the bit order, the control byte sent back and the byte
numbering are its own choices, D7, D9 and D10). -/
def Obligations.RequestTakesTwoMoreUnits : Prop :=
  ∀ (s : State) (f g h : Byte), s.cfg.variant = .A → UnitBoundary s → s.mix = none →
    f ≠ 0x01#8 ∧ f ≠ 0x02#8 → g ≠ 0x01#8 ∧ g ≠ 0x02#8 → h ≠ 0x01#8 ∧ h ≠ 0x02#8 →
    (∃ t, runInstrs (xferBc .A 0x02#8 ++ (xferBc .A f ++ (xferBc .A g ++ xferBc .A h))) s = .next t ∧
      t.count = 0#2 ∧
      t.out = s.out ++ (sentByte s.shift ++ (sentByte 0x02#8 ++
        (sentByte (s.rr.extractLsb' 8 8) ++ sentByte (s.rr.extractLsb' 0 8))))) ∧
    (∃ t, runInstrs (xferBc .A 0x01#8 ++ (xferBc .A f ++ xferBc .A g)) s = .next t ∧
      t.count = 0#2 ∧
      t.out = s.out ++ (sentByte s.shift ++ (sentByte 0x01#8 ++ sentByte (s.rr.extractLsb' 0 8))))

/-- A Variant-B session, from a select on and with no mix: the first unit sends the old `SHIFT`, and every later one the
low byte of `RR`, whatever the master sends (42_byte_shifter.md section 2; the spec marks this as derived; the bit order
and the byte numbering are its own choices, D7 and D10). -/
def Obligations.StreamRepeatsLowByte : Prop :=
  ∀ (s : State) (b : Byte) (bs : List Byte), s.cfg.variant = .B → UnitBoundary s → s.mix = none →
    runInstrs ((b :: bs).flatMap (xferBc .B)) s =
      .next { s with
        shift := s.rr.extractLsb' 0 8
        out := s.out ++ (sentByte s.shift ++ bs.flatMap (fun _ => sentByte (s.rr.extractLsb' 0 8))) }

/-! ## Reset -/

/-- `RESET`: its word, enabled always, and every element at its reset value, with `SHIFT` the next free byte
(70_reset_and_hazards.md section 1; the values of `COUNT`, `SEL`, `CNT`, `OVF`, `BC_IE`, `DO_EN` and `SHIFT` are the
spec's own choice, D17; what stays is assumption log 13). -/
def Obligations.ResetSetsEveryElement : Prop :=
  (∀ v : Variant, decodeEvent v 0b1100#4 = .ok .reset) ∧
  ∀ s : State,
    exec .reset s =
      .next { s with
        rr := s.cfg.seed
        latch := .empty
        mix := none
        count := if s.cfg.variant = .A then 0#2 else s.count
        sel := .idle
        cnt := 0#3
        ovf := false
        bcIe := false
        doEn := false
        shift := Config.freeByte s.draws
        draws := s.draws + 1 }

/-- The machine right after reset: each element at the value of the spec's table of reset values (70_reset_and_hazards.md
section 1, D17), for any parameters and any events to come, and what that gives with the default parameters (the default
variant is the model's choice, assumption log 4; the seed's value is the spec's default, log 5). The table gives `COUNT`
to Variant A alone; that the field is 0 in Variant B too, where no rule reads it, is the model's choice (log 10). -/
def Obligations.ResetStateValues : Prop :=
  (∀ (c : Cfg) (events : List EventWord),
    (State.start c events).rr = c.seed ∧ (State.start c events).latch = .empty ∧
    (State.start c events).mix = none ∧ (State.start c events).count = 0#2 ∧
    (State.start c events).sel = .idle ∧ (State.start c events).cnt = 0#3 ∧
    (State.start c events).ovf = false ∧ (State.start c events).bcIe = false ∧
    (State.start c events).doEn = false ∧ (State.start c events).trace = events) ∧
  State.reset = State.start Cfg.default [] ∧ State.reset.rr = 0x01555555#32

/-- Until the first select nothing is armed: no handler runs, and every clock pulse shows `Z` (70_reset_and_hazards.md
section 1; the spec marks this as derived). -/
def Obligations.DisarmedUntilSelect : Prop :=
  ∀ (is : List Instr) (s t : State), s.bcIe = false → s.doEn = false → (∀ i ∈ is, i ≠ .csFall) →
    runInstrs is s = .next t →
      t.bcIe = false ∧ t.doEn = false ∧ (∀ i ∈ is, i.isHandler = false) ∧
      ∃ k, t.out = s.out ++ List.replicate k DoLevel.z

/-! ## The whole machine -/

/-- Only the operations the spec's read/write matrix names, and `RESET`, change each element (10_state.md section 5; the
spec marks the matrix as derived; 70_reset_and_hazards.md section 1), and only a clock pulse emits, one level each
(42_byte_shifter.md section 1, 60_exceptions.md section 9). That no operation, `RESET` among them, changes the
parameters, the events to come, the position or the levels emitted before is the model's choice (assumption logs 1, 7
and 13; the step itself takes the event off the trace), and so is that the count stays in Variant B (logs 10 and 13). -/
def Obligations.WriteMatrix : Prop :=
  ∀ (i : Instr) (s t : State), exec i s = .next t →
    (t.rr ≠ s.rr → i = .mixCommit ∨ i = .reset ∨ ((∃ n, i = .tick n) ∧ s.cfg.atomicMix = true)) ∧
    (t.latch ≠ s.latch → (∃ n, i = .tick n) ∨ i = .reset) ∧
    (t.mix ≠ s.mix → (∃ n, i = .tick n) ∨ i = .mixCommit ∨ i = .reset) ∧
    (t.count ≠ s.count →
      (i.isHandler = true ∧ s.cfg.variant = .A) ∨
      (i = .csFall ∧ s.cfg.variant = .A ∧ s.cfg.countResetOnSelect = true) ∨ (i = .reset ∧ s.cfg.variant = .A)) ∧
    (t.sel ≠ s.sel → i = .csFall ∨ i = .csRise ∨ i = .reset) ∧
    (t.shift ≠ s.shift → (∃ d, i = .sck d) ∨ i.isHandler = true ∨ i = .reset) ∧
    (t.cnt ≠ s.cnt → (∃ d, i = .sck d) ∨ i = .csFall ∨ i = .reset) ∧
    (t.ovf ≠ s.ovf → (∃ d, i = .sck d) ∨ i.isHandler = true ∨ i = .csFall ∨ i = .reset) ∧
    (t.bcIe ≠ s.bcIe → i = .csFall ∨ i = .csRise ∨ i = .reset) ∧
    (t.doEn ≠ s.doEn → i = .csFall ∨ i = .csRise ∨ i = .reset) ∧
    t.cfg = s.cfg ∧ t.trace = s.trace ∧ t.index = s.index ∧
    ((∃ d, i = .sck d) → ∃ o, t.out = s.out ++ [o]) ∧
    ((¬ ∃ d, i = .sck d) → t.out = s.out)

/-- The invariant of the reachable states holds right after reset, for every legal configuration and every trace. -/
def Obligations.InvariantHoldsAtReset : Prop :=
  (∀ (c : Cfg) (events : List EventWord), c.Legal → Invariant (State.start c events)) ∧ Invariant State.reset

/-- Every step keeps the invariant: the padding of `RR`, the shape of a mix in flight, `COUNT ≠ 3`,
`BC_IE = DO_EN = SEL` and no window in an atomic build. -/
def Obligations.EveryStepKeepsInvariant : Prop :=
  ∀ s t : State, Invariant s → step s = .next t → Invariant t

/-! ## Runs -/

/-- A run starts at the reset state of any legal configuration, with any events to come, and can always go on: a
`CS_FALL` may follow any finite run (60_exceptions.md section 9: "every state has enabled steps (`CS_FALL` at least)";
what a run is, is the spec's own choice D22). -/
def Obligations.RunsStartAtResetAndGoOn : Prop :=
  (∀ (c : Cfg) (events : List EventWord), c.Legal → IsFiniteRun [] (State.start c events) (State.start c events)) ∧
  ∀ (is : List Instr) (s t : State), IsFiniteRun is s t →
    ∃ u, exec .csFall t = .next u ∧ IsFiniteRun (is ++ [.csFall]) s u

/-- What a run shows: its levels on `DO` are those of its clock pulses, one each, in order and nothing before them, and
there is one state after each step, the last being where the run ends (60_exceptions.md section 9, D22). The first
clause says the same of an execution from any state. -/
def Obligations.RunIsObserved : Prop :=
  (∀ (is : List Instr) (s t : State), runInstrs is s = .next t →
    t.out = s.out ++ (observation is s).1 ∧
    (observation is s).1.length = (is.filter fun i => i = .sck false ∨ i = .sck true).length ∧
    (observation is s).2.length = is.length ∧ (observation is s).2.getLastD s = t) ∧
  ∀ (is : List Instr) (s t : State), IsFiniteRun is s t → t.out = (observation is s).1

/-- Every state of every run meets the invariant: the start and the state after each step of a finite run, and every
state of an infinite one (10_state.md sections 1, 3 and 4, 40_entropy.md section 5, 60_exceptions.md section 9). -/
def Obligations.RunsMeetInvariant : Prop :=
  (∀ (is : List Instr) (s t : State), IsFiniteRun is s t → ∀ u ∈ s :: (observation is s).2, Invariant u) ∧
  ∀ (σ : Nat → State) (ev : Nat → Instr), IsRun σ ev → ∀ k, Invariant (σ k)
end

