-- ==== Sys2Proof/Laws/State.lean ====
section
/-! SUPPORT. One lemma per field of State per named update: what the update leaves in that field. -/

namespace Sys2Proof.Machine

@[simp] theorem clearOvf_cfg (s : State) : (clearOvf s).cfg = s.cfg := rfl
@[simp] theorem clearOvf_rr (s : State) : (clearOvf s).rr = s.rr := rfl
@[simp] theorem clearOvf_latch (s : State) : (clearOvf s).latch = s.latch := rfl
@[simp] theorem clearOvf_mix (s : State) : (clearOvf s).mix = s.mix := rfl
@[simp] theorem clearOvf_count (s : State) : (clearOvf s).count = s.count := rfl
@[simp] theorem clearOvf_shift (s : State) : (clearOvf s).shift = s.shift := rfl
@[simp] theorem clearOvf_sel (s : State) : (clearOvf s).sel = s.sel := rfl
@[simp] theorem clearOvf_cnt (s : State) : (clearOvf s).cnt = s.cnt := rfl
@[simp] theorem clearOvf_ovf (s : State) : (clearOvf s).ovf = false := rfl
@[simp] theorem clearOvf_bcIe (s : State) : (clearOvf s).bcIe = s.bcIe := rfl
@[simp] theorem clearOvf_doEn (s : State) : (clearOvf s).doEn = s.doEn := rfl
@[simp] theorem clearOvf_trace (s : State) : (clearOvf s).trace = s.trace := rfl
@[simp] theorem clearOvf_index (s : State) : (clearOvf s).index = s.index := rfl
@[simp] theorem clearOvf_out (s : State) : (clearOvf s).out = s.out := rfl
@[simp] theorem clearOvf_draws (s : State) : (clearOvf s).draws = s.draws := rfl

@[simp] theorem loadShift_cfg (v : Byte) (s : State) : (loadShift v s).cfg = s.cfg := rfl
@[simp] theorem loadShift_rr (v : Byte) (s : State) : (loadShift v s).rr = s.rr := rfl
@[simp] theorem loadShift_latch (v : Byte) (s : State) : (loadShift v s).latch = s.latch := rfl
@[simp] theorem loadShift_mix (v : Byte) (s : State) : (loadShift v s).mix = s.mix := rfl
@[simp] theorem loadShift_count (v : Byte) (s : State) : (loadShift v s).count = s.count := rfl
@[simp] theorem loadShift_shift (v : Byte) (s : State) : (loadShift v s).shift = v := rfl
@[simp] theorem loadShift_sel (v : Byte) (s : State) : (loadShift v s).sel = s.sel := rfl
@[simp] theorem loadShift_cnt (v : Byte) (s : State) : (loadShift v s).cnt = s.cnt := rfl
@[simp] theorem loadShift_ovf (v : Byte) (s : State) : (loadShift v s).ovf = s.ovf := rfl
@[simp] theorem loadShift_bcIe (v : Byte) (s : State) : (loadShift v s).bcIe = s.bcIe := rfl
@[simp] theorem loadShift_doEn (v : Byte) (s : State) : (loadShift v s).doEn = s.doEn := rfl
@[simp] theorem loadShift_trace (v : Byte) (s : State) : (loadShift v s).trace = s.trace := rfl
@[simp] theorem loadShift_index (v : Byte) (s : State) : (loadShift v s).index = s.index := rfl
@[simp] theorem loadShift_out (v : Byte) (s : State) : (loadShift v s).out = s.out := rfl
@[simp] theorem loadShift_draws (v : Byte) (s : State) : (loadShift v s).draws = s.draws := rfl

@[simp] theorem loadRandom_cfg (k : BitVec 2) (s : State) : (loadRandom k s).cfg = s.cfg := rfl
@[simp] theorem loadRandom_rr (k : BitVec 2) (s : State) : (loadRandom k s).rr = s.rr := rfl
@[simp] theorem loadRandom_latch (k : BitVec 2) (s : State) : (loadRandom k s).latch = s.latch := rfl
@[simp] theorem loadRandom_mix (k : BitVec 2) (s : State) : (loadRandom k s).mix = s.mix := rfl
@[simp] theorem loadRandom_count (k : BitVec 2) (s : State) : (loadRandom k s).count = s.count := rfl
@[simp] theorem loadRandom_shift (k : BitVec 2) (s : State) : (loadRandom k s).shift = readRRByte k s := rfl
@[simp] theorem loadRandom_sel (k : BitVec 2) (s : State) : (loadRandom k s).sel = s.sel := rfl
@[simp] theorem loadRandom_cnt (k : BitVec 2) (s : State) : (loadRandom k s).cnt = s.cnt := rfl
@[simp] theorem loadRandom_ovf (k : BitVec 2) (s : State) : (loadRandom k s).ovf = s.ovf := rfl
@[simp] theorem loadRandom_bcIe (k : BitVec 2) (s : State) : (loadRandom k s).bcIe = s.bcIe := rfl
@[simp] theorem loadRandom_doEn (k : BitVec 2) (s : State) : (loadRandom k s).doEn = s.doEn := rfl
@[simp] theorem loadRandom_trace (k : BitVec 2) (s : State) : (loadRandom k s).trace = s.trace := rfl
@[simp] theorem loadRandom_index (k : BitVec 2) (s : State) : (loadRandom k s).index = s.index := rfl
@[simp] theorem loadRandom_out (k : BitVec 2) (s : State) : (loadRandom k s).out = s.out := rfl
@[simp] theorem loadRandom_draws (k : BitVec 2) (s : State) : (loadRandom k s).draws = drawsAfterRead s := rfl

@[simp] theorem emit_cfg (o : DoLevel) (s : State) : (emit o s).cfg = s.cfg := rfl
@[simp] theorem emit_rr (o : DoLevel) (s : State) : (emit o s).rr = s.rr := rfl
@[simp] theorem emit_latch (o : DoLevel) (s : State) : (emit o s).latch = s.latch := rfl
@[simp] theorem emit_mix (o : DoLevel) (s : State) : (emit o s).mix = s.mix := rfl
@[simp] theorem emit_count (o : DoLevel) (s : State) : (emit o s).count = s.count := rfl
@[simp] theorem emit_shift (o : DoLevel) (s : State) : (emit o s).shift = s.shift := rfl
@[simp] theorem emit_sel (o : DoLevel) (s : State) : (emit o s).sel = s.sel := rfl
@[simp] theorem emit_cnt (o : DoLevel) (s : State) : (emit o s).cnt = s.cnt := rfl
@[simp] theorem emit_ovf (o : DoLevel) (s : State) : (emit o s).ovf = s.ovf := rfl
@[simp] theorem emit_bcIe (o : DoLevel) (s : State) : (emit o s).bcIe = s.bcIe := rfl
@[simp] theorem emit_doEn (o : DoLevel) (s : State) : (emit o s).doEn = s.doEn := rfl
@[simp] theorem emit_trace (o : DoLevel) (s : State) : (emit o s).trace = s.trace := rfl
@[simp] theorem emit_index (o : DoLevel) (s : State) : (emit o s).index = s.index := rfl
@[simp] theorem emit_out (o : DoLevel) (s : State) : (emit o s).out = s.out ++ [o] := rfl
@[simp] theorem emit_draws (o : DoLevel) (s : State) : (emit o s).draws = s.draws := rfl

@[simp] theorem exchangeBit_cfg (d : Bool) (s : State) : (exchangeBit d s).cfg = s.cfg := rfl
@[simp] theorem exchangeBit_rr (d : Bool) (s : State) : (exchangeBit d s).rr = s.rr := rfl
@[simp] theorem exchangeBit_latch (d : Bool) (s : State) : (exchangeBit d s).latch = s.latch := rfl
@[simp] theorem exchangeBit_mix (d : Bool) (s : State) : (exchangeBit d s).mix = s.mix := rfl
@[simp] theorem exchangeBit_count (d : Bool) (s : State) : (exchangeBit d s).count = s.count := rfl
@[simp] theorem exchangeBit_shift (d : Bool) (s : State) : (exchangeBit d s).shift = shiftIn s.shift d := rfl
@[simp] theorem exchangeBit_sel (d : Bool) (s : State) : (exchangeBit d s).sel = s.sel := rfl
@[simp] theorem exchangeBit_cnt (d : Bool) (s : State) : (exchangeBit d s).cnt = cntNext s.cnt := rfl
@[simp] theorem exchangeBit_ovf (d : Bool) (s : State) : (exchangeBit d s).ovf = ovfNext s.cnt s.ovf := rfl
@[simp] theorem exchangeBit_bcIe (d : Bool) (s : State) : (exchangeBit d s).bcIe = s.bcIe := rfl
@[simp] theorem exchangeBit_doEn (d : Bool) (s : State) : (exchangeBit d s).doEn = s.doEn := rfl
@[simp] theorem exchangeBit_trace (d : Bool) (s : State) : (exchangeBit d s).trace = s.trace := rfl
@[simp] theorem exchangeBit_index (d : Bool) (s : State) : (exchangeBit d s).index = s.index := rfl
@[simp] theorem exchangeBit_out (d : Bool) (s : State) : (exchangeBit d s).out = s.out := rfl
@[simp] theorem exchangeBit_draws (d : Bool) (s : State) : (exchangeBit d s).draws = s.draws := rfl

@[simp] theorem controlEffect_cfg (n : BitVec 2) (s : State) : (controlEffect n s).cfg = s.cfg := rfl
@[simp] theorem controlEffect_rr (n : BitVec 2) (s : State) : (controlEffect n s).rr = s.rr := rfl
@[simp] theorem controlEffect_latch (n : BitVec 2) (s : State) : (controlEffect n s).latch = s.latch := rfl
@[simp] theorem controlEffect_mix (n : BitVec 2) (s : State) : (controlEffect n s).mix = s.mix := rfl
@[simp] theorem controlEffect_count (n : BitVec 2) (s : State) : (controlEffect n s).count = n := rfl
@[simp] theorem controlEffect_shift (n : BitVec 2) (s : State) : (controlEffect n s).shift = s.shift := rfl
@[simp] theorem controlEffect_sel (n : BitVec 2) (s : State) : (controlEffect n s).sel = s.sel := rfl
@[simp] theorem controlEffect_cnt (n : BitVec 2) (s : State) : (controlEffect n s).cnt = s.cnt := rfl
@[simp] theorem controlEffect_ovf (n : BitVec 2) (s : State) : (controlEffect n s).ovf = false := rfl
@[simp] theorem controlEffect_bcIe (n : BitVec 2) (s : State) : (controlEffect n s).bcIe = s.bcIe := rfl
@[simp] theorem controlEffect_doEn (n : BitVec 2) (s : State) : (controlEffect n s).doEn = s.doEn := rfl
@[simp] theorem controlEffect_trace (n : BitVec 2) (s : State) : (controlEffect n s).trace = s.trace := rfl
@[simp] theorem controlEffect_index (n : BitVec 2) (s : State) : (controlEffect n s).index = s.index := rfl
@[simp] theorem controlEffect_out (n : BitVec 2) (s : State) : (controlEffect n s).out = s.out := rfl
@[simp] theorem controlEffect_draws (n : BitVec 2) (s : State) : (controlEffect n s).draws = s.draws := rfl

@[simp] theorem selectEffect_cfg (s : State) : (selectEffect s).cfg = s.cfg := rfl
@[simp] theorem selectEffect_rr (s : State) : (selectEffect s).rr = s.rr := rfl
@[simp] theorem selectEffect_latch (s : State) : (selectEffect s).latch = s.latch := rfl
@[simp] theorem selectEffect_mix (s : State) : (selectEffect s).mix = s.mix := rfl
@[simp] theorem selectEffect_count (s : State) : (selectEffect s).count = if s.cfg.variant = .A ∧ s.cfg.countResetOnSelect = true then 0#2 else s.count := rfl
@[simp] theorem selectEffect_shift (s : State) : (selectEffect s).shift = s.shift := rfl
@[simp] theorem selectEffect_sel (s : State) : (selectEffect s).sel = .active := rfl
@[simp] theorem selectEffect_cnt (s : State) : (selectEffect s).cnt = 0#3 := rfl
@[simp] theorem selectEffect_ovf (s : State) : (selectEffect s).ovf = false := rfl
@[simp] theorem selectEffect_bcIe (s : State) : (selectEffect s).bcIe = true := rfl
@[simp] theorem selectEffect_doEn (s : State) : (selectEffect s).doEn = true := rfl
@[simp] theorem selectEffect_trace (s : State) : (selectEffect s).trace = s.trace := rfl
@[simp] theorem selectEffect_index (s : State) : (selectEffect s).index = s.index := rfl
@[simp] theorem selectEffect_out (s : State) : (selectEffect s).out = s.out := rfl
@[simp] theorem selectEffect_draws (s : State) : (selectEffect s).draws = s.draws := rfl

@[simp] theorem deselectEffect_cfg (s : State) : (deselectEffect s).cfg = s.cfg := rfl
@[simp] theorem deselectEffect_rr (s : State) : (deselectEffect s).rr = s.rr := rfl
@[simp] theorem deselectEffect_latch (s : State) : (deselectEffect s).latch = s.latch := rfl
@[simp] theorem deselectEffect_mix (s : State) : (deselectEffect s).mix = s.mix := rfl
@[simp] theorem deselectEffect_count (s : State) : (deselectEffect s).count = s.count := rfl
@[simp] theorem deselectEffect_shift (s : State) : (deselectEffect s).shift = s.shift := rfl
@[simp] theorem deselectEffect_sel (s : State) : (deselectEffect s).sel = .idle := rfl
@[simp] theorem deselectEffect_cnt (s : State) : (deselectEffect s).cnt = s.cnt := rfl
@[simp] theorem deselectEffect_ovf (s : State) : (deselectEffect s).ovf = s.ovf := rfl
@[simp] theorem deselectEffect_bcIe (s : State) : (deselectEffect s).bcIe = false := rfl
@[simp] theorem deselectEffect_doEn (s : State) : (deselectEffect s).doEn = false := rfl
@[simp] theorem deselectEffect_trace (s : State) : (deselectEffect s).trace = s.trace := rfl
@[simp] theorem deselectEffect_index (s : State) : (deselectEffect s).index = s.index := rfl
@[simp] theorem deselectEffect_out (s : State) : (deselectEffect s).out = s.out := rfl
@[simp] theorem deselectEffect_draws (s : State) : (deselectEffect s).draws = s.draws := rfl

@[simp] theorem resetEffect_cfg (s : State) : (resetEffect s).cfg = s.cfg := rfl
@[simp] theorem resetEffect_rr (s : State) : (resetEffect s).rr = s.cfg.seed := rfl
@[simp] theorem resetEffect_latch (s : State) : (resetEffect s).latch = .empty := rfl
@[simp] theorem resetEffect_mix (s : State) : (resetEffect s).mix = none := rfl
@[simp] theorem resetEffect_count (s : State) : (resetEffect s).count = if s.cfg.variant = .A then 0#2 else s.count := rfl
@[simp] theorem resetEffect_shift (s : State) : (resetEffect s).shift = Config.freeByte s.draws := rfl
@[simp] theorem resetEffect_sel (s : State) : (resetEffect s).sel = .idle := rfl
@[simp] theorem resetEffect_cnt (s : State) : (resetEffect s).cnt = 0#3 := rfl
@[simp] theorem resetEffect_ovf (s : State) : (resetEffect s).ovf = false := rfl
@[simp] theorem resetEffect_bcIe (s : State) : (resetEffect s).bcIe = false := rfl
@[simp] theorem resetEffect_doEn (s : State) : (resetEffect s).doEn = false := rfl
@[simp] theorem resetEffect_trace (s : State) : (resetEffect s).trace = s.trace := rfl
@[simp] theorem resetEffect_index (s : State) : (resetEffect s).index = s.index := rfl
@[simp] theorem resetEffect_out (s : State) : (resetEffect s).out = s.out := rfl
@[simp] theorem resetEffect_draws (s : State) : (resetEffect s).draws = s.draws + 1 := rfl

@[simp] theorem popEvent_cfg (rest : List EventWord) (s : State) : (popEvent rest s).cfg = s.cfg := rfl
@[simp] theorem popEvent_rr (rest : List EventWord) (s : State) : (popEvent rest s).rr = s.rr := rfl
@[simp] theorem popEvent_latch (rest : List EventWord) (s : State) : (popEvent rest s).latch = s.latch := rfl
@[simp] theorem popEvent_mix (rest : List EventWord) (s : State) : (popEvent rest s).mix = s.mix := rfl
@[simp] theorem popEvent_count (rest : List EventWord) (s : State) : (popEvent rest s).count = s.count := rfl
@[simp] theorem popEvent_shift (rest : List EventWord) (s : State) : (popEvent rest s).shift = s.shift := rfl
@[simp] theorem popEvent_sel (rest : List EventWord) (s : State) : (popEvent rest s).sel = s.sel := rfl
@[simp] theorem popEvent_cnt (rest : List EventWord) (s : State) : (popEvent rest s).cnt = s.cnt := rfl
@[simp] theorem popEvent_ovf (rest : List EventWord) (s : State) : (popEvent rest s).ovf = s.ovf := rfl
@[simp] theorem popEvent_bcIe (rest : List EventWord) (s : State) : (popEvent rest s).bcIe = s.bcIe := rfl
@[simp] theorem popEvent_doEn (rest : List EventWord) (s : State) : (popEvent rest s).doEn = s.doEn := rfl
@[simp] theorem popEvent_trace (rest : List EventWord) (s : State) : (popEvent rest s).trace = rest := rfl
@[simp] theorem popEvent_index (rest : List EventWord) (s : State) : (popEvent rest s).index = s.index + 1 := rfl
@[simp] theorem popEvent_out (rest : List EventWord) (s : State) : (popEvent rest s).out = s.out := rfl
@[simp] theorem popEvent_draws (rest : List EventWord) (s : State) : (popEvent rest s).draws = s.draws := rfl

end Sys2Proof.Machine
end

