-- ==== Sys2Proof/Laws/Frames.lean ====
section
/-! SUPPORT. The frames of the conditional updates: one lemma per field that the update never touches. -/

namespace Sys2Proof.Machine

@[simp] theorem startMix_cfg (e : Bool) (s : State) : (startMix e s).cfg = s.cfg := by unfold startMix; split <;> rfl
@[simp] theorem startMix_latch (e : Bool) (s : State) : (startMix e s).latch = s.latch := by unfold startMix; split <;> rfl
@[simp] theorem startMix_count (e : Bool) (s : State) : (startMix e s).count = s.count := by unfold startMix; split <;> rfl
@[simp] theorem startMix_shift (e : Bool) (s : State) : (startMix e s).shift = s.shift := by unfold startMix; split <;> rfl
@[simp] theorem startMix_sel (e : Bool) (s : State) : (startMix e s).sel = s.sel := by unfold startMix; split <;> rfl
@[simp] theorem startMix_cnt (e : Bool) (s : State) : (startMix e s).cnt = s.cnt := by unfold startMix; split <;> rfl
@[simp] theorem startMix_ovf (e : Bool) (s : State) : (startMix e s).ovf = s.ovf := by unfold startMix; split <;> rfl
@[simp] theorem startMix_bcIe (e : Bool) (s : State) : (startMix e s).bcIe = s.bcIe := by unfold startMix; split <;> rfl
@[simp] theorem startMix_doEn (e : Bool) (s : State) : (startMix e s).doEn = s.doEn := by unfold startMix; split <;> rfl
@[simp] theorem startMix_trace (e : Bool) (s : State) : (startMix e s).trace = s.trace := by unfold startMix; split <;> rfl
@[simp] theorem startMix_index (e : Bool) (s : State) : (startMix e s).index = s.index := by unfold startMix; split <;> rfl
@[simp] theorem startMix_out (e : Bool) (s : State) : (startMix e s).out = s.out := by unfold startMix; split <;> rfl
@[simp] theorem startMix_draws (e : Bool) (s : State) : (startMix e s).draws = s.draws := by unfold startMix; split <;> rfl

@[simp] theorem commitMix_cfg (s : State) : (commitMix s).cfg = s.cfg := by unfold commitMix; split <;> rfl
@[simp] theorem commitMix_latch (s : State) : (commitMix s).latch = s.latch := by unfold commitMix; split <;> rfl
@[simp] theorem commitMix_count (s : State) : (commitMix s).count = s.count := by unfold commitMix; split <;> rfl
@[simp] theorem commitMix_shift (s : State) : (commitMix s).shift = s.shift := by unfold commitMix; split <;> rfl
@[simp] theorem commitMix_sel (s : State) : (commitMix s).sel = s.sel := by unfold commitMix; split <;> rfl
@[simp] theorem commitMix_cnt (s : State) : (commitMix s).cnt = s.cnt := by unfold commitMix; split <;> rfl
@[simp] theorem commitMix_ovf (s : State) : (commitMix s).ovf = s.ovf := by unfold commitMix; split <;> rfl
@[simp] theorem commitMix_bcIe (s : State) : (commitMix s).bcIe = s.bcIe := by unfold commitMix; split <;> rfl
@[simp] theorem commitMix_doEn (s : State) : (commitMix s).doEn = s.doEn := by unfold commitMix; split <;> rfl
@[simp] theorem commitMix_trace (s : State) : (commitMix s).trace = s.trace := by unfold commitMix; split <;> rfl
@[simp] theorem commitMix_index (s : State) : (commitMix s).index = s.index := by unfold commitMix; split <;> rfl
@[simp] theorem commitMix_out (s : State) : (commitMix s).out = s.out := by unfold commitMix; split <;> rfl
@[simp] theorem commitMix_draws (s : State) : (commitMix s).draws = s.draws := by unfold commitMix; split <;> rfl

@[simp] theorem tickEffect_cfg (n : Bool) (s : State) : (tickEffect n s).cfg = s.cfg := by unfold tickEffect; (repeat' split) <;> simp
@[simp] theorem tickEffect_count (n : Bool) (s : State) : (tickEffect n s).count = s.count := by unfold tickEffect; (repeat' split) <;> simp
@[simp] theorem tickEffect_shift (n : Bool) (s : State) : (tickEffect n s).shift = s.shift := by unfold tickEffect; (repeat' split) <;> simp
@[simp] theorem tickEffect_sel (n : Bool) (s : State) : (tickEffect n s).sel = s.sel := by unfold tickEffect; (repeat' split) <;> simp
@[simp] theorem tickEffect_cnt (n : Bool) (s : State) : (tickEffect n s).cnt = s.cnt := by unfold tickEffect; (repeat' split) <;> simp
@[simp] theorem tickEffect_ovf (n : Bool) (s : State) : (tickEffect n s).ovf = s.ovf := by unfold tickEffect; (repeat' split) <;> simp
@[simp] theorem tickEffect_bcIe (n : Bool) (s : State) : (tickEffect n s).bcIe = s.bcIe := by unfold tickEffect; (repeat' split) <;> simp
@[simp] theorem tickEffect_doEn (n : Bool) (s : State) : (tickEffect n s).doEn = s.doEn := by unfold tickEffect; (repeat' split) <;> simp
@[simp] theorem tickEffect_trace (n : Bool) (s : State) : (tickEffect n s).trace = s.trace := by unfold tickEffect; (repeat' split) <;> simp
@[simp] theorem tickEffect_index (n : Bool) (s : State) : (tickEffect n s).index = s.index := by unfold tickEffect; (repeat' split) <;> simp
@[simp] theorem tickEffect_out (n : Bool) (s : State) : (tickEffect n s).out = s.out := by unfold tickEffect; (repeat' split) <;> simp
@[simp] theorem tickEffect_draws (n : Bool) (s : State) : (tickEffect n s).draws = s.draws := by unfold tickEffect; (repeat' split) <;> simp

@[simp] theorem pulseEffect_cfg (d : Bool) (s : State) : (pulseEffect d s).cfg = s.cfg := by unfold pulseEffect; split <;> rfl
@[simp] theorem pulseEffect_rr (d : Bool) (s : State) : (pulseEffect d s).rr = s.rr := by unfold pulseEffect; split <;> rfl
@[simp] theorem pulseEffect_latch (d : Bool) (s : State) : (pulseEffect d s).latch = s.latch := by unfold pulseEffect; split <;> rfl
@[simp] theorem pulseEffect_mix (d : Bool) (s : State) : (pulseEffect d s).mix = s.mix := by unfold pulseEffect; split <;> rfl
@[simp] theorem pulseEffect_count (d : Bool) (s : State) : (pulseEffect d s).count = s.count := by unfold pulseEffect; split <;> rfl
@[simp] theorem pulseEffect_sel (d : Bool) (s : State) : (pulseEffect d s).sel = s.sel := by unfold pulseEffect; split <;> rfl
@[simp] theorem pulseEffect_bcIe (d : Bool) (s : State) : (pulseEffect d s).bcIe = s.bcIe := by unfold pulseEffect; split <;> rfl
@[simp] theorem pulseEffect_doEn (d : Bool) (s : State) : (pulseEffect d s).doEn = s.doEn := by unfold pulseEffect; split <;> rfl
@[simp] theorem pulseEffect_trace (d : Bool) (s : State) : (pulseEffect d s).trace = s.trace := by unfold pulseEffect; split <;> rfl
@[simp] theorem pulseEffect_index (d : Bool) (s : State) : (pulseEffect d s).index = s.index := by unfold pulseEffect; split <;> rfl
@[simp] theorem pulseEffect_draws (d : Bool) (s : State) : (pulseEffect d s).draws = s.draws := by unfold pulseEffect; split <;> rfl

@[simp] theorem dataEffect_cfg (s : State) : (dataEffect s).cfg = s.cfg := by unfold dataEffect; split <;> rfl
@[simp] theorem dataEffect_rr (s : State) : (dataEffect s).rr = s.rr := by unfold dataEffect; split <;> rfl
@[simp] theorem dataEffect_latch (s : State) : (dataEffect s).latch = s.latch := by unfold dataEffect; split <;> rfl
@[simp] theorem dataEffect_mix (s : State) : (dataEffect s).mix = s.mix := by unfold dataEffect; split <;> rfl
@[simp] theorem dataEffect_sel (s : State) : (dataEffect s).sel = s.sel := by unfold dataEffect; split <;> rfl
@[simp] theorem dataEffect_cnt (s : State) : (dataEffect s).cnt = s.cnt := by unfold dataEffect; split <;> rfl
@[simp] theorem dataEffect_bcIe (s : State) : (dataEffect s).bcIe = s.bcIe := by unfold dataEffect; split <;> rfl
@[simp] theorem dataEffect_doEn (s : State) : (dataEffect s).doEn = s.doEn := by unfold dataEffect; split <;> rfl
@[simp] theorem dataEffect_trace (s : State) : (dataEffect s).trace = s.trace := by unfold dataEffect; split <;> rfl
@[simp] theorem dataEffect_index (s : State) : (dataEffect s).index = s.index := by unfold dataEffect; split <;> rfl
@[simp] theorem dataEffect_out (s : State) : (dataEffect s).out = s.out := by unfold dataEffect; split <;> rfl

@[simp] theorem handlerA_cfg (s : State) : (handlerA s).cfg = s.cfg := by unfold handlerA; simp only; split <;> simp
@[simp] theorem handlerA_rr (s : State) : (handlerA s).rr = s.rr := by unfold handlerA; simp only; split <;> simp
@[simp] theorem handlerA_latch (s : State) : (handlerA s).latch = s.latch := by unfold handlerA; simp only; split <;> simp
@[simp] theorem handlerA_mix (s : State) : (handlerA s).mix = s.mix := by unfold handlerA; simp only; split <;> simp
@[simp] theorem handlerA_sel (s : State) : (handlerA s).sel = s.sel := by unfold handlerA; simp only; split <;> simp
@[simp] theorem handlerA_cnt (s : State) : (handlerA s).cnt = s.cnt := by unfold handlerA; simp only; split <;> simp
@[simp] theorem handlerA_bcIe (s : State) : (handlerA s).bcIe = s.bcIe := by unfold handlerA; simp only; split <;> simp
@[simp] theorem handlerA_doEn (s : State) : (handlerA s).doEn = s.doEn := by unfold handlerA; simp only; split <;> simp
@[simp] theorem handlerA_trace (s : State) : (handlerA s).trace = s.trace := by unfold handlerA; simp only; split <;> simp
@[simp] theorem handlerA_index (s : State) : (handlerA s).index = s.index := by unfold handlerA; simp only; split <;> simp
@[simp] theorem handlerA_out (s : State) : (handlerA s).out = s.out := by unfold handlerA; simp only; split <;> simp

@[simp] theorem handlerB_cfg (s : State) : (handlerB s).cfg = s.cfg := rfl
@[simp] theorem handlerB_rr (s : State) : (handlerB s).rr = s.rr := rfl
@[simp] theorem handlerB_latch (s : State) : (handlerB s).latch = s.latch := rfl
@[simp] theorem handlerB_mix (s : State) : (handlerB s).mix = s.mix := rfl
@[simp] theorem handlerB_count (s : State) : (handlerB s).count = s.count := rfl
@[simp] theorem handlerB_sel (s : State) : (handlerB s).sel = s.sel := rfl
@[simp] theorem handlerB_cnt (s : State) : (handlerB s).cnt = s.cnt := rfl
@[simp] theorem handlerB_bcIe (s : State) : (handlerB s).bcIe = s.bcIe := rfl
@[simp] theorem handlerB_doEn (s : State) : (handlerB s).doEn = s.doEn := rfl
@[simp] theorem handlerB_trace (s : State) : (handlerB s).trace = s.trace := rfl
@[simp] theorem handlerB_index (s : State) : (handlerB s).index = s.index := rfl
@[simp] theorem handlerB_out (s : State) : (handlerB s).out = s.out := rfl

@[simp] theorem dataEffect_ovf (s : State) : (dataEffect s).ovf = false := rfl
@[simp] theorem handlerA_ovf (s : State) : (handlerA s).ovf = false := by unfold handlerA; simp only; split <;> rfl
@[simp] theorem handlerB_ovf (s : State) : (handlerB s).ovf = false := rfl
@[simp] theorem handlerB_shift (s : State) : (handlerB s).shift = readRRByte 0#2 s := rfl
@[simp] theorem handlerB_draws (s : State) : (handlerB s).draws = drawsAfterRead s := rfl
@[simp] theorem commitMix_mix (s : State) : (commitMix s).mix = none := by unfold commitMix; split <;> simp_all

end Sys2Proof.Machine
end

