-- ==== Sys2Proof/Laws/Ops.lean ====
section
/-! SUPPORT. One lemma for each shared operation that says everything it can do, and the inversion of `exec` that every
claim over all instructions goes through. -/

namespace Sys2Proof.Machine

/-! ## Taking an event, and exec -/

theorem takeEvent_next_iff {i : Instr} {f : State → State} {s t : State} :
    takeEvent i f s = .next t ↔ enabled i s = true ∧ t = f s := by
  cases h : enabled i s <;> simp [takeEvent, h, eq_comm]

theorem takeEvent_of_enabled {i : Instr} {f : State → State} {s : State} (h : enabled i s = true) :
    takeEvent i f s = .next (f s) := by simp [takeEvent, h]

theorem takeEvent_of_not_enabled {i : Instr} {f : State → State} {s : State} (h : enabled i s = false) :
    takeEvent i f s = .refused (.notEnabled i) := by simp [takeEvent, h]

/-- What an enabled instruction does to the state. -/
def effect : Instr → State → State
  | .tick n => tickEffect n
  | .mixCommit => commitMix
  | .csFall => selectEffect
  | .csRise => deselectEffect
  | .sck d => pulseEffect d
  | .byteCompleteA => handlerA
  | .byteCompleteB => handlerB
  | .reset => resetEffect
  | .ctrl1 => controlEffect 1#2
  | .ctrl2 => controlEffect 2#2
  | .data00 | .data03 | .data04to07 _ | .data08to0F _ | .data10to1F _ | .data20to3F _ | .data40to7F _
  | .data80toFF _ => dataEffect

theorem exec_eq_takeEvent (i : Instr) (s : State) : exec i s = takeEvent i (effect i) s := by
  cases i <;> rfl

/-- Everything `exec` can do when it answers a next state. -/
theorem exec_next_iff {i : Instr} {s t : State} :
    exec i s = .next t ↔ enabled i s = true ∧ t = effect i s := by
  rw [exec_eq_takeEvent, takeEvent_next_iff]

theorem exec_of_enabled {i : Instr} {s : State} (h : enabled i s = true) :
    exec i s = .next (effect i s) := exec_next_iff.2 ⟨h, rfl⟩

/-! ## The entropy path's operations -/

theorem feedback_eq (r : Word) (b : Bool) : feedback r b = (b ^^ r.getLsbD 0 ^^ r.getLsbD 3) := rfl

/-- Every bit of a mix: the injected bit is ORed into bit 24, every other comes from the place above. -/
theorem mixFn_getLsbD (r : Word) (b : Bool) (i : Nat) :
    (mixFn r b).getLsbD i = if i = 24 then (r.getLsbD 25 || feedback r b) else r.getLsbD (i + 1) := by
  unfold mixFn topBit
  rw [BitVec.getLsbD_or, BitVec.getLsbD_ushiftRight, BitVec.getLsbD_shiftLeft, BitVec.getLsbD_setWidth]
  by_cases h : i = 24
  · subst h; simp
  · rcases Nat.lt_or_ge i 24 with h' | h'
    · simp [h, h', Nat.add_comm]
    · have : ¬ i < 24 := by omega
      have h1 : i - 24 ≠ 0 := by omega
      simp [h, Nat.add_comm, BitVec.getLsbD_ofBool, h1]

theorem startMix_atomic {e : Bool} {s : State} (h : s.cfg.atomicMix = true) :
    startMix e s = { s with rr := mixFn s.rr e } := by simp [startMix, h]

theorem startMix_windowed {e : Bool} {s : State} (h : s.cfg.atomicMix = false) :
    startMix e s = { s with mix := some { old := s.rr, new := mixFn s.rr e } } := by simp [startMix, h]

theorem commitMix_none {s : State} (h : s.mix = none) : commitMix s = s := by simp [commitMix, h]

theorem commitMix_some {s : State} {m : InFlight} (h : s.mix = some m) :
    commitMix s = { s with rr := m.new, mix := none } := by simp [commitMix, h]

/-! ## The byte read -/

theorem bitAt_getLsbD (b : Bool) (i j : Nat) (hj : j < 8) : (bitAt b i).getLsbD j = (decide (j = i) && b) := by
  unfold bitAt
  rw [BitVec.getLsbD_shiftLeft, BitVec.getLsbD_setWidth]
  rcases Nat.lt_trichotomy j i with h | h | h
  · simp [h, Nat.ne_of_lt h]
  · subst h; simp [hj]
  · have h1 : j - i ≠ 0 := by omega
    simp [hj, Nat.ne_of_gt h, BitVec.getLsbD_ofBool, h1]

/-- The choices of a torn read are the free bits, in order. -/
theorem drawMask_getLsbD (d n j : Nat) (hj : j < 8) :
    (drawMask d n).getLsbD j = (decide (j < n) && Config.freeBit (d + j)) := by
  induction n with
  | zero => simp [drawMask]
  | succ n ih =>
    rw [drawMask, BitVec.getLsbD_or, ih, bitAt_getLsbD _ _ _ hj]
    by_cases h : j = n
    · subst h; simp
    · by_cases h' : j < n
      · simp [h, h', Nat.lt_succ_of_lt h']
      · have : ¬ j < n + 1 := by omega
        simp [h, h', this]

theorem tornByte_getLsbD (c o w : Byte) (j : Nat) (hj : j < 8) :
    (tornByte c o w).getLsbD j = if c.getLsbD j then w.getLsbD j else o.getLsbD j := by
  simp only [tornByte, BitVec.getLsbD_or, BitVec.getLsbD_and, BitVec.getLsbD_not, hj]
  cases c.getLsbD j <;> simp

theorem byteOf_getLsbD (r : Word) (k : BitVec 2) (j : Nat) (hj : j < 8) :
    (byteOf r k).getLsbD j = r.getLsbD (8 * k.toNat + j) := by
  simp [byteOf, hj]

theorem readRRByte_whole {k : BitVec 2} {s : State} (h : s.mix = none) : readRRByte k s = byteOf s.rr k := by
  simp [readRRByte, h]

theorem drawsAfterRead_whole {s : State} (h : s.mix = none) : drawsAfterRead s = s.draws := by
  simp [drawsAfterRead, h]

/-! ## The byte-complete handler -/

theorem dataEffect_idle {s : State} (h : s.count = 0#2) : dataEffect s = { s with ovf := false } := by
  simp [dataEffect, h, clearOvf]

theorem dataEffect_load {s : State} (h : s.count ≠ 0#2) :
    dataEffect s =
      { s with
        shift := readRRByte (s.count - 1#2) s
        draws := drawsAfterRead s
        count := s.count - 1#2
        ovf := false } := by
  simp [dataEffect, h, clearOvf, loadRandom, loadShift]

theorem handlerA_control {s : State} (h : isControl s.shift = true) :
    handlerA s = controlEffect (countOperand s.shift) s := by simp [handlerA, h]

theorem handlerA_data {s : State} (h : isControl s.shift = false) : handlerA s = dataEffect s := by
  simp [handlerA, h]

/-! ## The serial engine -/

/-- Every bit of the buffer after an exchange. -/
theorem shiftIn_getLsbD (x : Byte) (d : Bool) (i : Nat) (hi : i < 8) :
    (shiftIn x d).getLsbD i = if i = 0 then d else x.getLsbD (i - 1) := by
  revert x d
  have h : i = 0 ∨ i = 1 ∨ i = 2 ∨ i = 3 ∨ i = 4 ∨ i = 5 ∨ i = 6 ∨ i = 7 := by omega
  rcases h with rfl | rfl | rfl | rfl | rfl | rfl | rfl | rfl <;> decide

theorem pulseEffect_stalled {d : Bool} {s : State} (h : s.ovf = true) :
    pulseEffect d s = { s with out := s.out ++ [outputLevel s] } := by simp [pulseEffect, h, emit]

theorem pulseEffect_shifting {d : Bool} {s : State} (h : s.ovf = false) :
    pulseEffect d s =
      { s with
        out := s.out ++ [outputLevel s]
        shift := shiftIn s.shift d
        cnt := cntNext s.cnt
        ovf := ovfNext s.cnt false } := by simp [pulseEffect, h, emit, exchangeBit]

/-! ## Runs -/

/-- A run of two lists is the run of the second from where the first ends. -/
theorem runInstrs_append {a b : List Instr} {s t : State} (h : runInstrs a s = .next t) :
    runInstrs (a ++ b) s = runInstrs b t := by
  induction a generalizing s with
  | nil => cases h; rfl
  | cons i rest ih =>
    simp only [runInstrs, List.cons_append] at h ⊢
    split at h <;> first | exact ih h | cases h

theorem runInstrs_cons_next {i : Instr} {rest : List Instr} {s t : State} :
    runInstrs (i :: rest) s = .next t ↔ ∃ u, exec i s = .next u ∧ runInstrs rest u = .next t := by
  simp only [runInstrs]
  cases exec i s <;> simp

/-! ## Placing an event -/

theorem makeReady_of_enabled {i : Instr} {s : State} (h : enabled i s = true) : makeReady i s = s := by
  simp [makeReady, h]

theorem makeReady_of_not_enabled {i : Instr} {s : State} (h : enabled i s = false) :
    makeReady i s = meetCondition i s := by simp [makeReady, h]

@[simp] theorem meetCondition_cfg (i : Instr) (s : State) : (meetCondition i s).cfg = s.cfg := by
  cases i <;> first | rfl | exact commitMix_cfg s
@[simp] theorem meetCondition_trace (i : Instr) (s : State) : (meetCondition i s).trace = s.trace := by
  cases i <;> first | rfl | exact commitMix_trace s
@[simp] theorem meetCondition_index (i : Instr) (s : State) : (meetCondition i s).index = s.index := by
  cases i <;> first | rfl | exact commitMix_index s
@[simp] theorem makeReady_cfg (i : Instr) (s : State) : (makeReady i s).cfg = s.cfg := by
  unfold makeReady; split <;> simp
@[simp] theorem makeReady_trace (i : Instr) (s : State) : (makeReady i s).trace = s.trace := by
  unfold makeReady; split <;> simp
@[simp] theorem makeReady_index (i : Instr) (s : State) : (makeReady i s).index = s.index := by
  unfold makeReady; split <;> simp

/-! ## Step -/

/-- Whether an instruction is enabled does not depend on the trace or the position. -/
theorem enabled_at (i : Instr) (s : State) (events : List EventWord) (n : Nat) :
    enabled i { s with trace := events, index := n } = enabled i s := by cases i <;> rfl

/-- What the Variant-A handler loads depends on neither. -/
theorem dataEffect_at (s : State) (events : List EventWord) (n : Nat) :
    dataEffect { s with trace := events, index := n } = { dataEffect s with trace := events, index := n } := by
  by_cases h : s.count = 0#2
  · rw [dataEffect_idle h, dataEffect_idle (s := { s with trace := events, index := n }) h]
  · rw [dataEffect_load h, dataEffect_load (s := { s with trace := events, index := n }) h]; rfl

/-- What an instruction does depends on neither, and it changes neither. -/
theorem effect_at (i : Instr) (s : State) (events : List EventWord) (n : Nat) :
    effect i { s with trace := events, index := n } = { effect i s with trace := events, index := n } := by
  cases i
  case tick b =>
    cases hl : s.latch with
    | empty => simp only [effect, tickEffect, hl]
    | captured prev => by_cases hb : b = prev <;> cases ha : s.cfg.atomicMix <;> simp [effect, tickEffect, startMix, *]
  case mixCommit => cases hm : s.mix <;> simp only [effect, commitMix, hm]
  case sck d =>
    rcases Bool.eq_false_or_eq_true s.ovf with ho | ho <;> simp only [effect]
    · rw [pulseEffect_stalled ho, pulseEffect_stalled (s := { s with trace := events, index := n }) ho]; rfl
    · rw [pulseEffect_shifting ho, pulseEffect_shifting (s := { s with trace := events, index := n }) ho]; rfl
  case byteCompleteA =>
    cases hc : isControl s.shift <;> simp only [effect]
    · rw [handlerA_data hc, handlerA_data (s := { s with trace := events, index := n }) hc, dataEffect_at]
    · rw [handlerA_control hc, handlerA_control (s := { s with trace := events, index := n }) hc]; rfl
  all_goals first | rfl | exact dataEffect_at s events n

theorem step_of_event {s : State} {w : EventWord} {rest : List EventWord} {i : Instr}
    (ht : s.trace = w :: rest) (hd : decodeEvent s.cfg.variant w = .ok i) :
    step s = exec i (popEvent rest s) := by simp [step, ht, hd]

/-- Everything `step` can do when it answers a next state: the block waits, or runs the event at the head. -/
theorem step_next_cases {s t : State} (h : step s = .next t) :
    (s.trace = [] ∧ t = s) ∨
    ∃ w rest i, s.trace = w :: rest ∧ decodeEvent s.cfg.variant w = .ok i ∧ exec i (popEvent rest s) = .next t := by
  unfold step at h
  split at h
  · next ht => exact .inl ⟨ht, by cases h; rfl⟩
  · next w rest ht =>
    split at h
    · next i hd => exact .inr ⟨w, rest, i, ht, hd, h⟩
    · cases h

end Sys2Proof.Machine
end

