-- ==== Sys2Proof/Laws/PerInstr.lean ====
section
/-! SUPPORT. The family of per-instruction statements: an instruction's encoding has the size, and the fixed bits, that
its row of spec/opcode_table.json gives. -/

namespace Sys2Proof.Laws.TableRow

/-- The encoding of `i` has its row's number of bits, and masked by its row's mask it is its row's match. -/
def Statement (i : Instr) : Prop :=
  codeSize (encode i) = (tableRow i).1 ∧ codeBits (encode i) &&& (tableRow i).2.1 = (tableRow i).2.2

theorem tick (n : Bool) : Statement (.tick n) := by cases n <;> exact ⟨rfl, rfl⟩
theorem mixCommit : Statement .mixCommit := ⟨rfl, rfl⟩
theorem csFall : Statement .csFall := ⟨rfl, rfl⟩
theorem csRise : Statement .csRise := ⟨rfl, rfl⟩
theorem sck (d : Bool) : Statement (.sck d) := by cases d <;> exact ⟨rfl, rfl⟩
theorem byteCompleteA : Statement .byteCompleteA := ⟨rfl, rfl⟩
theorem byteCompleteB : Statement .byteCompleteB := ⟨rfl, rfl⟩
theorem reset : Statement .reset := ⟨rfl, rfl⟩
theorem ctrl1 : Statement .ctrl1 := ⟨rfl, rfl⟩
theorem ctrl2 : Statement .ctrl2 := ⟨rfl, rfl⟩
theorem data00 : Statement .data00 := ⟨rfl, rfl⟩
theorem data03 : Statement .data03 := ⟨rfl, rfl⟩
theorem data04to07 (x : BitVec 2) : Statement (.data04to07 x) := ⟨rfl, by revert x; decide⟩
theorem data08to0F (x : BitVec 3) : Statement (.data08to0F x) := ⟨rfl, by revert x; decide⟩
theorem data10to1F (x : BitVec 4) : Statement (.data10to1F x) := ⟨rfl, by revert x; decide⟩
theorem data20to3F (x : BitVec 5) : Statement (.data20to3F x) := ⟨rfl, by revert x; decide⟩
theorem data40to7F (x : BitVec 6) : Statement (.data40to7F x) := ⟨rfl, by revert x; decide⟩
theorem data80toFF (x : BitVec 7) : Statement (.data80toFF x) := ⟨rfl, by revert x; decide⟩

end Sys2Proof.Laws.TableRow
end

