-- ==== Sys2Proof/Tests/Slice0.lean ====
section
/-! SUPPORT. The model's own tests. Words are written out from 30_encoding.md R73 and R76, expected results from the
vectors of 95_test_vectors.md (the section is named at each). The last part shows, for every statement with hypotheses, a
state and operands that meet them. -/

namespace Sys2Proof.Tests

open Sys2Proof.Machine

/-! ## Helpers -/

/-- A block with every element at a known value: the seed, nothing latched, nothing armed, `SHIFT` 0x3C. -/
def base : State :=
  { cfg := Cfg.default, rr := 0x01555555#32, latch := .empty, mix := none, count := 0#2, shift := 0x3C#8,
    sel := .idle, cnt := 0#3, ovf := false, bcIe := false, doEn := false, trace := [], index := 0, out := [],
    draws := 0 }

/-- `base` in a block of variant `v`. -/
def baseOf (v : Variant) : State := { base with cfg := { Cfg.default with variant := v } }

/-- `base` in an atomic build. -/
def atomicBase : State := { base with cfg := { Cfg.default with atomicMix := true } }

/-- A selected block of variant `v` at a unit boundary. -/
def armed (v : Variant) : State := { baseOf v with sel := .active, bcIe := true, doEn := true }

/-- A selected block of variant `v` that has just received `rx`, with `RR = 0x00001234`. -/
def received (v : Variant) (rx : Byte) (count : BitVec 2) : State :=
  { armed v with ovf := true, shift := rx, count := count, rr := 0x00001234#32 }

/-- The seed's first mix in flight (L1-1). -/
def window : InFlight := { old := 0x01555555#32, new := 0x01AAAAAA#32 }

/-- A field of the next state, if there is one. -/
def got {α : Type} (f : State → α) : Host.Outcome State Fault Refusal → Option α
  | .next t => some (f t)
  | .fault _ => none
  | .refused _ => none

/-- What refused an instruction, if something did. -/
def refusalOf : Host.Outcome State Fault Refusal → Option Refusal
  | .next _ => none
  | .fault _ => none
  | .refused r => some r

/-! ## Decoding -/

/-- R76 and R77 (L2-11): the sixteen words of a Variant-A block. -/
theorem test_event_words :
    ((List.range 16).map fun k => (decodeEvent .A (BitVec.ofNat 4 k)).toOption) =
      [some (.tick false), some (.tick true), some .mixCommit, none, some .csFall, none, some .csRise, none,
       some (.sck false), some (.sck true), some .byteCompleteA, none, some .reset, none, none, none] := by decide

/-- R77: each rejected word is rejected by name. -/
theorem test_rejects :
    (match decodeEvent .A 0b1011#4 with | .ok _ => none | .error r => some r) = some (.operandNotZero 0b1011#4) ∧
    (match decodeEvent .A 0b1110#4 with | .ok _ => none | .error r => some r) = some (.noOperation 0b1110#4) ∧
    (match decodeCode .B (.received 0x01#8) with | .ok _ => none | .error r => some r) =
      some (.notDecodedInVariantB 0x01#8) := by decide

/-- R144: word 1010 in Variant B. -/
theorem test_byte_complete_b_word : (decodeEvent .B 0b1010#4).toOption = some .byteCompleteB := by decide

/-- R72 and R73 (L2-6 and one byte for every row, its free bits not all equal). -/
theorem test_received_bytes :
    decodeReceived 0b00000001#8 = .ctrl1 ∧ decodeReceived 0b00000010#8 = .ctrl2 ∧
    decodeReceived 0b00000000#8 = .data00 ∧ decodeReceived 0b00000011#8 = .data03 ∧
    decodeReceived 0b00000110#8 = .data04to07 0b10#2 ∧ decodeReceived 0b00001011#8 = .data08to0F 0b011#3 ∧
    decodeReceived 0b00010110#8 = .data10to1F 0b0110#4 ∧ decodeReceived 0b00110001#8 = .data20to3F 0b10001#5 ∧
    decodeReceived 0b01000110#8 = .data40to7F 0b000110#6 ∧ decodeReceived 0b10000001#8 = .data80toFF 0b0000001#7 ∧
    decodeReceived 0b11111111#8 = .data80toFF 0b1111111#7 := by decide

/-- The table's rows through the host's entry: 4-bit rows as events, 8-bit rows as received bytes, and the values that
spell an event as that event when a size is given in whole bytes (assumption log 12). -/
theorem test_table_words :
    decodeTableWord 4 0 = some (.tick false) ∧ decodeTableWord 4 10 = some .byteCompleteA ∧
    decodeTableWord 4 3 = none ∧ decodeTableWord 8 6 = some .csRise ∧ decodeTableWord 8 3 = some .data03 ∧
    decodeTableWord 8 0x40 = some (.data40to7F 0#6) ∧ decodeTableWord 8 256 = none := by decide

/-- R80: `XFER_BC 0xA5` of program P6 is `98988989 A`. -/
theorem test_pseudo_events :
    eventWords (xferBc .B 0xA5#8) = [9#4, 8#4, 9#4, 8#4, 8#4, 9#4, 8#4, 9#4, 0xA#4] ∧
    eventWords (tickC true) = [1#4, 2#4] := by decide

/-- R79: a line of a trace names its event. -/
theorem test_trace_lines :
    traceLine (.tick true) = some "TICK 1" ∧ parseLine .B "BYTE_COMPLETE" = some .byteCompleteB ∧
    parseLine .A "SCK 0" = some (.sck false) ∧ parseLine .A "SCK 2" = none := by decide

/-! ## WellFormed -/

/-- A Variant-A handler is no instruction of a Variant-B block. -/
theorem test_ill_formed_handler_a : WellFormed .B .byteCompleteA = false := by decide

/-- A Variant-B handler is no instruction of a Variant-A block. -/
theorem test_ill_formed_handler_b : WellFormed .A .byteCompleteB = false := by decide

/-- Variant B decodes no received byte (R74). -/
theorem test_ill_formed_row : WellFormed .B .ctrl1 = false ∧ WellFormed .B (.data80toFF 5#7) = false := by decide

/-! ## One step of each instruction -/

/-- L2-1: rows of the mixing function. -/
theorem test_mix_rows :
    mixFn 0x01AAAAAA#32 true = 0x00D55555#32 ∧ mixFn 0x00000008#32 false = 0x01000004#32 ∧
    mixFn 0x01FFFFFF#32 true = 0x01FFFFFF#32 ∧ mixFn 0x00001234#32 true = 0x0100091A#32 := by decide

/-- L2-2, fifth row: the mix is in flight and `RR` is unchanged. -/
theorem test_tick_emits_prev :
    got (fun t => (t.latch, t.mix, t.rr)) (exec (.tick true) { base with latch := .captured false }) =
      some (.empty, some window, 0x01555555#32) := by decide

/-- L2-2, fourth row (equal pair), and the fifth row in an atomic build. -/
theorem test_tick_equal_and_atomic :
    got (fun t => (t.latch, t.mix)) (exec (.tick true) { base with latch := .captured true }) =
      some (.captured true, none) ∧
    got (fun t => (t.latch, t.mix, t.rr)) (exec (.tick true) { atomicBase with latch := .captured false }) =
      some (.empty, none, 0x01AAAAAA#32) := by decide

/-- L2-3, first row; and a commit with no mix is refused. -/
theorem test_mix_commit :
    got (fun t => (t.rr, t.mix)) (exec .mixCommit { base with mix := some window }) =
      some (0x01AAAAAA#32, none) ∧
    refusalOf (exec .mixCommit base) = some (.notEnabled .mixCommit) := by decide

/-- L2-4, first and second rows. -/
theorem test_cs_fall :
    got (fun t => (t.sel, t.cnt, t.ovf, t.bcIe, t.doEn, t.count))
      (exec .csFall { base with cnt := 5#3, ovf := true, count := 1#2 }) =
      some (.active, 0#3, false, true, true, 0#2) ∧
    got State.count (exec .csFall { base with count := 1#2, cfg := { Cfg.default with countResetOnSelect := false } }) =
      some 1#2 := by decide

/-- L2-4, fourth row. -/
theorem test_cs_rise :
    got (fun t => (t.sel, t.bcIe, t.doEn, t.count, t.cnt)) (exec .csRise { armed .A with count := 2#2, cnt := 3#3 }) =
      some (.idle, false, false, 2#2, 3#3) := by decide

/-- L2-5, first row: the eighth bit. -/
theorem test_sck_eighth_bit :
    got (fun t => (t.shift, t.cnt, t.ovf, t.out)) (exec (.sck true) { armed .A with shift := 0x55#8, cnt := 7#3 }) =
      some (0xAB#8, 0#3, true, [.bit false]) := by decide

/-- L2-5, third and fourth rows: deselected, and stalled. -/
theorem test_sck_deselected_and_stalled :
    got (fun t => (t.shift, t.cnt, t.out)) (exec (.sck true) { base with shift := 0x80#8 }) =
      some (0x01#8, 1#3, [.z]) ∧
    got (fun t => (t.shift, t.cnt, t.ovf, t.out)) (exec (.sck false) { armed .A with shift := 0xA5#8, ovf := true }) =
      some (0xA5#8, 0#3, true, [.bit true]) := by decide

/-- L2-7, fourth row: byte 1 is loaded. -/
theorem test_byte_complete_a_loads :
    got (fun t => (t.shift, t.count, t.ovf)) (exec .byteCompleteA (received .A 0xFF#8 2#2)) =
      some (0x12#8, 1#2, false) := by decide

/-- L2-7, third and sixth rows: a resent control byte, and the idle case. -/
theorem test_byte_complete_a_control_and_idle :
    got (fun t => (t.shift, t.count)) (exec .byteCompleteA (received .A 0x01#8 2#2)) = some (0x01#8, 1#2) ∧
    got (fun t => (t.shift, t.count)) (exec .byteCompleteA (received .A 0xFF#8 0#2)) = some (0xFF#8, 0#2) := by decide

/-- L2-8, second row: the received byte is ignored. -/
theorem test_byte_complete_b :
    got (fun t => (t.shift, t.ovf)) (exec .byteCompleteB { received .B 0x01#8 0#2 with rr := 0x01AAAAAA#32 }) =
      some (0xAA#8, false) := by decide

/-- L2-8, fifth row: a torn read gives one of 0x00, 0x04, 0x08, 0x0C, whatever the free bits are. -/
theorem test_byte_complete_b_torn (c : Byte) :
    tornByte c (byteOf 0x00000008#32 0#2) (byteOf 0x01000004#32 0#2) ∈ [0x00#8, 0x04#8, 0x08#8, 0x0C#8] := by
  revert c; decide

/-- L2-10: every element but `SHIFT`, from a state in which every one of them differs. -/
theorem test_reset :
    got (fun t => (t.rr, t.latch, t.mix, t.count))
      (exec .reset { received .A 0x77#8 2#2 with latch := .captured true, mix := some window, cnt := 3#3 }) =
      some (0x01555555#32, .empty, none, 0#2) ∧
    got (fun t => (t.sel, t.cnt, t.ovf, t.bcIe, t.doEn)) (exec .reset { received .A 0x77#8 2#2 with cnt := 3#3 }) =
      some (.idle, 0#3, false, false, false) := by decide

/-- L2-7, second row. -/
theorem test_ctrl1 :
    got (fun t => (t.shift, t.count, t.ovf)) (exec .ctrl1 (received .A 0x01#8 0#2)) =
      some (0x01#8, 1#2, false) := by decide

/-- L2-7, first row. -/
theorem test_ctrl2 :
    got (fun t => (t.shift, t.count, t.ovf)) (exec .ctrl2 (received .A 0x02#8 0#2)) =
      some (0x02#8, 2#2, false) := by decide

/-- L2-7, seventh row: 0 must not arm. -/
theorem test_data00 :
    got (fun t => (t.shift, t.count, t.ovf)) (exec .data00 (received .A 0x00#8 0#2)) =
      some (0x00#8, 0#2, false) := by decide

/-- L2-7, ninth row: 3 is a filler when a count is pending. -/
theorem test_data03 :
    got (fun t => (t.shift, t.count, t.ovf)) (exec .data03 (received .A 0x03#8 1#2)) =
      some (0x34#8, 0#2, false) := by decide

/-- R146, R147: a data clock of the row with a count of 2 loads byte 1. -/
theorem test_data04to07 :
    got (fun t => (t.shift, t.count)) (exec (.data04to07 0b11#2) (received .A 0x07#8 2#2)) =
      some (0x12#8, 1#2) := by decide

/-- R146, R147, in the row 0x08 to 0x0F. -/
theorem test_data08to0F :
    got (fun t => (t.shift, t.count)) (exec (.data08to0F 0b010#3) (received .A 0x0A#8 1#2)) =
      some (0x34#8, 0#2) := by decide

/-- R146, R147, in the row 0x10 to 0x1F. -/
theorem test_data10to1F :
    got (fun t => (t.shift, t.count)) (exec (.data10to1F 0b0000#4) (received .A 0x10#8 2#2)) =
      some (0x12#8, 1#2) := by decide

/-- R146, R148, in the row 0x20 to 0x3F: nothing pending, nothing loaded. -/
theorem test_data20to3F :
    got (fun t => (t.shift, t.count)) (exec (.data20to3F 0b11111#5) (received .A 0x3F#8 0#2)) =
      some (0x3F#8, 0#2) := by decide

/-- R146, R147, in the row 0x40 to 0x7F. -/
theorem test_data40to7F :
    got (fun t => (t.shift, t.count)) (exec (.data40to7F 0b000001#6) (received .A 0x41#8 1#2)) =
      some (0x34#8, 0#2) := by decide

/-- L2-7, fifth row, by its row; and the row is refused where `SHIFT` holds another byte (assumption log 11). -/
theorem test_data80toFF :
    got (fun t => (t.shift, t.count)) (exec (.data80toFF 0b1111111#7) (received .A 0xFF#8 1#2)) =
      some (0x34#8, 0#2) ∧
    refusalOf (exec (.data80toFF 0b1111111#7) (received .A 0xFE#8 1#2)) =
      some (.notEnabled (.data80toFF 0b1111111#7)) := by decide

/-! ## Step -/

/-- The step takes the word at the head of the trace; a word that spells none is refused; with none left it waits. -/
theorem test_step :
    got (fun t => (t.sel, t.trace, t.index)) (step { base with trace := [4#4, 6#4] }) = some (.active, [6#4], 1) ∧
    refusalOf (step { base with trace := [0xF#4] }) = some (.noSuchEvent (.noOperation 0xF#4)) ∧
    got State.index (step base) = some 0 := by decide

/-- From the reset state itself, a placed event is the very next step: a select arms the engine. -/
theorem test_fetch_word_event :
    got (fun t => (t.sel, t.cnt, t.bcIe, t.index)) (step (State.reset.withFetchWord 4 4)) =
      some (.active, 0#3, true, 1) := by decide

/-- From the reset state itself, a placed received byte is what the very next step's handler decodes. -/
theorem test_fetch_word_received :
    got (fun t => (t.ovf, t.count)) (step (State.reset.withFetchWord 8 0x80)) = some (false, 0#2) := by decide

/-! ## Witnesses: every statement with hypotheses is met -/

theorem witness_NonStepsAreRefused :
    ({ base with trace := [0b1111#4] } : State).trace = 0b1111#4 :: [] ∧
    0b1111#4 ∈ [0b0011#4, 0b0101#4, 0b0111#4, 0b1011#4, 0b1101#4, 0b1110#4, 0b1111#4] ∧
    ({ base with trace := [0b0010#4] } : State).trace = 0b0010#4 :: [] ∧
    decodeEvent base.cfg.variant 0b0010#4 = .ok .mixCommit ∧
    ¬ ∃ t, exec .mixCommit (popEvent [] { base with trace := [0b0010#4] }) = .next t :=
  ⟨rfl, by decide, rfl, rfl, fun ⟨_, h⟩ => by cases h⟩

theorem witness_DecodeOfEncodeAgrees :
    WellFormed .A (.data80toFF 0b1111111#7) = true ∧ WellFormed .B .byteCompleteB = true ∧
    WellFormed .B (.sck true) = true := by decide

theorem witness_EncodeOfDecodeAgrees :
    decodeCode .B (.event 0b1010#4) = .ok .byteCompleteB ∧ decodeCode .A (.received 0xFF#8) = .ok (.data80toFF 127#7) :=
  ⟨rfl, rfl⟩

theorem witness_StepRunsDecodedEvent :
    base.trace = [] ∧ ({ base with trace := [0b1001#4] } : State).trace = 0b1001#4 :: [] ∧
    decodeEvent base.cfg.variant 0b1001#4 = .ok (.sck true) := ⟨rfl, rfl, rfl⟩

theorem witness_PlacedTableWordRuns :
    decodeEvent base.cfg.variant 0b0010#4 = .ok .mixCommit ∧ decodeEvent (baseOf .B).cfg.variant 0b1010#4 = .ok .byteCompleteB ∧
    (∀ (w : EventWord) (i : Instr), w.toNat = (0x80#8).toNat → decodeEvent .A w ≠ .ok i) ∧
    (∀ (w : EventWord) (i : Instr), w.toNat = (0x03#8).toNat → decodeEvent .A w ≠ .ok i) := by
  refine ⟨rfl, rfl, fun w _ h => absurd h (by revert w; decide), fun w i h => ?_⟩
  rw [show w = 0b0011#4 from BitVec.eq_of_toNat_eq h]
  exact fun h => by cases h

theorem witness_PlacingOnlyEnables :
    enabled .csFall base = true ∧ ({ base with mix := some window } : State).mix = some window ∧ base.mix = none ∧
    Instr.byteCompleteA.isHandler = true ∧ enabled .byteCompleteA base = false ∧
    WellFormed base.cfg.variant .mixCommit = true ∧ Instr.mixCommit.isEvent = true := by decide

theorem witness_StepsFollowTheTrace :
    (∀ i ∈ [Instr.csFall, .sck true, .tick false], i.isEvent = true) ∧
    ∃ t, runInstrs [.csFall, .sck true, .tick false] base = .next t := ⟨by decide, _, rfl⟩

theorem witness_ConfigurationIsFixed :
    ∃ t, Host.Core.run core 2 { base with trace := [0b0100#4, 0b1100#4] } = .next t := ⟨_, rfl⟩

theorem witness_OperationsEnabledExactly :
    (∃ t, exec .csFall base = .next t) ∧ ¬ ∃ t, exec .byteCompleteA (received .B 0xFF#8 0#2) = .next t :=
  ⟨⟨_, rfl⟩, fun ⟨_, h⟩ => by cases h⟩

theorem witness_TickFollowsItsRule :
    ({ base with mix := some window } : State).mix ≠ none ∧ base.mix = none ∧ base.latch = .empty ∧
    ({ base with latch := .captured true } : State).latch = .captured true ∧ true ≠ false ∧
    atomicBase.cfg.atomicMix = true ∧ base.cfg.atomicMix = false := by decide

theorem witness_UnequalPairsMixAndNoOthers :
    (∃ t, exec (.tick true) { base with latch := .captured false } = .next t ∧ t.latch = .empty) ∧
    (∃ t, exec (.tick true) { atomicBase with latch := .captured false } = .next t ∧ t.latch = .empty) ∧
    (∃ t, exec (.tick true) base = .next t ∧ t.latch ≠ .empty) :=
  ⟨⟨_, rfl, rfl⟩, ⟨_, rfl, rfl⟩, ⟨_, rfl, by decide⟩⟩

theorem witness_FirstSampleIsEmitted : base.latch = .empty ∧ base.mix = none := ⟨rfl, rfl⟩

theorem witness_MixFormula : (0x01555555#32 : Word).getLsbD 25 = false := by decide

theorem witness_MixKeepsPaddingZero : (0x01FFFFFF#32 : Word).extractLsb' 25 7 = 0#7 := by decide

theorem witness_MixerIsControllable :
    (0x01555555#32 : Word).extractLsb' 25 7 = 0#7 ∧ (0#32 : Word).extractLsb' 25 7 = 0#7 := by decide

theorem witness_UnperturbedRecurrence : (0x01555555#32 : Word).extractLsb' 25 7 = 0#7 := by decide

theorem witness_RegisterIsFoldOfEmittedBits :
    (∀ i ∈ [Instr.tick true, .csFall, .mixCommit], i ≠ .reset) ∧
    ∃ t, runInstrs [.tick true, .csFall, .mixCommit] { base with latch := .captured false } = .next t :=
  ⟨by decide, _, rfl⟩

theorem witness_MixCommitFollowsItsRule : base.mix = none ∧ ({ base with mix := some window } : State).mix = some window :=
  ⟨rfl, rfl⟩

theorem witness_EntropyPathIgnoresTransport :
    entropyPart base = entropyPart (armed .A) ∧
    [Instr.tick true, .csFall].filter Instr.isEntropy = [Instr.sck true, .tick true].filter Instr.isEntropy ∧
    (∃ t, runInstrs [.tick true, .csFall] base = .next t) ∧
    ∃ t, runInstrs [.sck true, .tick true] (armed .A) = .next t := ⟨rfl, rfl, ⟨_, rfl⟩, ⟨_, rfl⟩⟩

theorem witness_PathsNeverBlockEachOther :
    Instr.mixCommit.isEntropy = true ∧ base.mix = (armed .A).mix ∧
    Instr.byteCompleteA.isEntropy = false ∧
    transportPart (received .A 0xFF#8 1#2) = transportPart { received .A 0xFF#8 1#2 with mix := some window } :=
  ⟨rfl, rfl, rfl, rfl⟩

/-- The reset state of a block whose seed is all ones, which the mix of a 1 gives again (L2-1). -/
def onesReset : State := State.start { Cfg.default with seed := 0x01FFFFFF#32 } []

/-- The states of a run from that reset state, repeating three steps for ever: `TICK 1`, `TICK 0`, `MIX_COMMIT`. -/
def cycle (k : Nat) : State :=
  match k % 3 with
  | 0 => onesReset
  | 1 => { onesReset with latch := .captured true }
  | _ => { onesReset with mix := some { old := 0x01FFFFFF#32, new := 0x01FFFFFF#32 } }

/-- The events of that run. -/
def cycleEvent (k : Nat) : Instr :=
  match k % 3 with
  | 0 => .tick true
  | 1 => .tick false
  | _ => .mixCommit

theorem cycle_cases (k : Nat) :
    (cycle k = cycle 0 ∧ cycle (k + 1) = cycle 1 ∧ cycleEvent k = .tick true) ∨
    (cycle k = cycle 1 ∧ cycle (k + 1) = cycle 2 ∧ cycleEvent k = .tick false) ∨
    (cycle k = cycle 2 ∧ cycle (k + 1) = cycle 0 ∧ cycleEvent k = .mixCommit) := by
  have h : k % 3 = 0 ∨ k % 3 = 1 ∨ k % 3 = 2 := by omega
  rcases h with h | h | h
  · exact .inl (by simp [cycle, cycleEvent, h, show (k + 1) % 3 = 1 by omega])
  · exact .inr (.inl (by simp [cycle, cycleEvent, h, show (k + 1) % 3 = 2 by omega]))
  · exact .inr (.inr (by simp [cycle, cycleEvent, h, show (k + 1) % 3 = 0 by omega]))

theorem onesReset_isReset : onesReset.IsReset := ⟨_, [], Config.freeByte 0, 1, by decide, rfl⟩

theorem cycle_isRun : IsRun cycle cycleEvent where
  start := onesReset_isReset
  event k := by rcases cycle_cases k with ⟨-, -, h⟩ | ⟨-, -, h⟩ | ⟨-, -, h⟩ <;> rw [h] <;> rfl
  next k := by rcases cycle_cases k with ⟨h, h', e⟩ | ⟨h, h', e⟩ | ⟨h, h', e⟩ <;> rw [h, h', e] <;> rfl

theorem cycle_unselected (k : Nat) : (cycle k).ovf = false := by
  rcases cycle_cases k with ⟨h, -, -⟩ | ⟨h, -, -⟩ | ⟨h, -, -⟩ <;> rw [h] <;> rfl

theorem cycle_fair : Fair cycle cycleEvent where
  commit k _ := ⟨3 * k + 2, by omega, by simp [cycleEvent, show (3 * k + 2) % 3 = 2 by omega]⟩
  handlerA k h := by have := h k (Nat.le_refl k); simp [enabled, handlerReady, cycle_unselected] at this
  handlerB k h := by have := h k (Nat.le_refl k); simp [enabled, handlerReady, cycle_unselected] at this
  ticks k := ⟨3 * k, true, by omega, by simp [cycleEvent]⟩

theorem witness_PendingMixIsCommitted :
    IsExecution cycle cycleEvent ∧ Fair cycle cycleEvent ∧ (cycle 2).mix ≠ none :=
  ⟨cycle_isRun.toIsExecution, cycle_fair, by decide⟩

theorem witness_ByteReadBits :
    7 < 8 ∧ base.mix = none ∧ ({ base with mix := some window } : State).mix = some window := ⟨by decide, rfl, rfl⟩

theorem witness_TornReadMixesOldAndNew : ({ base with mix := some window } : State).mix = some window := rfl

theorem witness_AtomicBuildNeverTears : Invariant atomicBase ∧ atomicBase.cfg.atomicMix = true :=
  ⟨⟨by decide, by decide, (fun _ h => by cases h), fun _ => rfl, by decide, rfl, rfl⟩, rfl⟩

theorem witness_CsFallFollowsItsRule :
    (base.cfg.variant = .A ∧ base.cfg.countResetOnSelect = true) ∧
    ¬ ((baseOf .B).cfg.variant = .A ∧ (baseOf .B).cfg.countResetOnSelect = true) := by decide

theorem witness_SelectStartsAfresh :
    base.cfg = (received .A 0x77#8 2#2).cfg ∧ (base.cfg.variant = .A → base.cfg.countResetOnSelect = true) ∧
    ((baseOf .B).cfg.variant = .A → (baseOf .B).cfg.countResetOnSelect = true) := by decide

theorem witness_NoResumptionAfterReselect :
    base.cfg.variant = .A ∧ base.cfg.countResetOnSelect = true ∧
    ∀ f ∈ [0x00#8, 0x03#8, 0xFF#8], f ≠ 0x01#8 ∧ f ≠ 0x02#8 := by decide

theorem witness_ReselectPolicy :
    base.cfg.variant = .A ∧ base.mix = none ∧ ({ base with count := 2#2 } : State).count ≠ 0#2 ∧
    0x03#8 ≠ 0x01#8 ∧ 0x03#8 ≠ 0x02#8 ∧ base.cfg.countResetOnSelect = true ∧
    ({ Cfg.default with countResetOnSelect := false } : Cfg).countResetOnSelect = false := by decide

theorem witness_SckExchangesOneBit : (received .A 0#8 0#2).ovf = true ∧ base.ovf = false := by decide

theorem witness_StalledPulsesChangeNothing : (received .A 0#8 0#2).ovf = true := by decide

theorem witness_UnitExchangesAByte :
    (armed .A).cnt = 0#3 ∧ (armed .A).ovf = false ∧ base.cnt = 0#3 ∧ base.ovf = false := by decide

theorem witness_CutUnitIsAbandoned :
    [true, false, true, true, false, true, true].length < 8 ∧ (armed .A).cnt = 0#3 ∧ (armed .A).ovf = false := by decide

theorem witness_ByteCompleteAFollowsItsRule :
    base.cfg.variant = .A ∧ ¬ (base.ovf = true ∧ base.bcIe = true) ∧
    (received .A 0x02#8 0#2).cfg.variant = .A ∧ (received .A 0x02#8 0#2).ovf = true ∧
    (received .A 0x02#8 0#2).bcIe = true ∧
    ((received .A 0x02#8 0#2).shift = 0x01#8 ∨ (received .A 0x02#8 0#2).shift = 0x02#8) ∧
    (received .A 0x03#8 2#2).shift ≠ 0x01#8 ∧ (received .A 0x03#8 2#2).shift ≠ 0x02#8 ∧
    (received .A 0x03#8 2#2).count ≠ 0#2 ∧ (received .A 0x00#8 0#2).shift ≠ 0x01#8 ∧
    (received .A 0x00#8 0#2).shift ≠ 0x02#8 ∧ (received .A 0x00#8 0#2).count = 0#2 := by decide

theorem witness_ByteCompleteBFollowsItsRule :
    (baseOf .B).cfg.variant = .B ∧ ¬ ((baseOf .B).ovf = true ∧ (baseOf .B).bcIe = true) ∧
    (received .B 0x01#8 0#2).cfg.variant = .B ∧ (received .B 0x01#8 0#2).ovf = true ∧
    (received .B 0x01#8 0#2).bcIe = true := by decide

theorem witness_HandlersClearTheFlag :
    (Instr.byteCompleteB = .byteCompleteA ∨ Instr.byteCompleteB = .byteCompleteB) ∧
    (∃ t, exec .byteCompleteB (received .B 0x01#8 0#2) = .next t) ∧
    ∃ t, exec .byteCompleteA (received .A 0x02#8 0#2) = .next t := ⟨.inr rfl, ⟨_, rfl⟩, ⟨_, rfl⟩⟩

theorem witness_HandlerRunsReceivedRow :
    (received .A 0x80#8 1#2).cfg.variant = .A ∧ (received .A 0x80#8 1#2).ovf = true ∧
    (received .A 0x80#8 1#2).bcIe = true := by decide

theorem witness_ControlBytesSetTheCount :
    (received .A 0x01#8 2#2).cfg.variant = .A ∧ (received .A 0x01#8 2#2).ovf = true ∧
    (received .A 0x01#8 2#2).bcIe = true ∧ (received .A 0x01#8 2#2).shift = 0x01#8 ∧
    (received .A 0x02#8 2#2).shift = 0x02#8 := by decide

theorem witness_DataBytesLoadIfPending :
    (Instr.data04to07 0b11#2).isDataRow = true ∧
    encode (.data04to07 0b11#2) = .received (received .A 0x07#8 2#2).shift ∧
    (received .A 0x07#8 2#2).cfg.variant = .A ∧ (received .A 0x07#8 2#2).ovf = true ∧
    (received .A 0x07#8 2#2).bcIe = true ∧ (received .A 0x07#8 2#2).count ≠ 0#2 ∧
    (received .A 0x07#8 0#2).count = 0#2 := by decide

theorem witness_RequestedBytesInOrder :
    (received .A 0xFF#8 2#2).cfg.variant = .A ∧ (received .A 0xFF#8 2#2).ovf = true ∧
    (received .A 0xFF#8 2#2).bcIe = true ∧ (received .A 0xFF#8 2#2).mix = none ∧
    (received .A 0xFF#8 2#2).shift ≠ 0x01#8 ∧ (received .A 0xFF#8 2#2).shift ≠ 0x02#8 ∧
    (received .A 0xFF#8 2#2).count = 2#2 ∧ (received .A 0xFF#8 1#2).count = 1#2 := by decide

theorem witness_DeselectCancelsHandler :
    (received .A 0xFF#8 1#2).ovf = true ∧ (∀ i ∈ [Instr.sck true, .tick true], i ≠ .csFall ∧ i ≠ .reset) ∧
    ∃ t, runInstrs (.csRise :: [.sck true, .tick true]) (received .A 0xFF#8 1#2) = .next t :=
  ⟨rfl, by decide, _, rfl⟩

theorem witness_RequestTakesTwoMoreUnits :
    (armed .A).cfg.variant = .A ∧ UnitBoundary (armed .A) ∧ (armed .A).mix = none ∧
    0x00#8 ≠ 0x01#8 ∧ 0x00#8 ≠ 0x02#8 ∧ 0x03#8 ≠ 0x01#8 ∧ 0x03#8 ≠ 0x02#8 :=
  ⟨rfl, ⟨rfl, rfl, rfl, rfl⟩, rfl, by decide⟩

theorem witness_StreamRepeatsLowByte :
    (armed .B).cfg.variant = .B ∧ UnitBoundary (armed .B) ∧ (armed .B).mix = none := ⟨rfl, ⟨rfl, rfl, rfl, rfl⟩, rfl⟩

theorem witness_DisarmedUntilSelect :
    base.bcIe = false ∧ base.doEn = false ∧ (∀ i ∈ [Instr.sck true, .reset, .csRise], i ≠ .csFall) ∧
    ∃ t, runInstrs [.sck true, .reset, .csRise] base = .next t := ⟨rfl, rfl, by decide, _, rfl⟩

theorem witness_WriteMatrix :
    (∃ t, exec .mixCommit { base with mix := some window } = .next t ∧ t.rr ≠ base.rr) ∧
    (∃ t, exec .csFall { base with count := 1#2 } = .next t ∧ t.count ≠ 1#2) ∧
    (∃ t, exec (.sck true) base = .next t ∧ t.shift ≠ base.shift) :=
  ⟨⟨_, rfl, by decide⟩, ⟨_, rfl, by decide⟩, ⟨_, rfl, by decide⟩⟩

theorem witness_InvariantHoldsAtReset : Cfg.default.Legal ∧ ({ Cfg.default with variant := .B, seed := 1#32 } : Cfg).Legal := by
  decide

theorem witness_EveryStepKeepsInvariant :
    Invariant { base with mix := some window, trace := [0b0010#4] } ∧
    ∃ t, step { base with mix := some window, trace := [0b0010#4] } = .next t :=
  ⟨⟨by decide, by decide, (fun _ h => by cases h; exact ⟨rfl, false, by decide⟩), (fun h => by cases h), by decide, rfl,
    rfl⟩, _, rfl⟩

/-- A finite run from a reset state: select, one pulse, a tick. -/
theorem finite_run : ∃ t, IsFiniteRun [.csFall, .sck true, .tick false] onesReset t :=
  ⟨_, onesReset_isReset, by decide, rfl⟩

theorem witness_RunsStartAtResetAndGoOn :
    Cfg.default.Legal ∧ ∃ t, IsFiniteRun [.csFall, .sck true, .tick false] onesReset t := ⟨by decide, finite_run⟩

theorem witness_RunIsObserved :
    (∃ t, runInstrs [.csFall, .sck true] { base with out := [.z] } = .next t) ∧
    ∃ t, IsFiniteRun [.csFall, .sck true, .tick false] onesReset t := ⟨⟨_, rfl⟩, finite_run⟩

theorem witness_RunsMeetInvariant :
    (∃ t, IsFiniteRun [.csFall, .sck true, .tick false] onesReset t) ∧ IsRun cycle cycleEvent := ⟨finite_run, cycle_isRun⟩

end Sys2Proof.Tests
end

section
/-! SUPPORT. The entropy family (40_entropy.md): the mixing function (R105) and the end of a mix's write (R107, R108). -/

namespace Sys2Proof.Machine

/-! ## The mixing function -/

/-- The formula of R105, with the taps and the injected position written as numbers. -/
theorem mixFn_eq (r : Word) (b : Bool) :
    mixFn r b =
      ((r >>> 1) ||| ((BitVec.ofBool (b ^^ r.getLsbD 0 ^^ r.getLsbD 3)).setWidth 32 <<< 24)) := rfl

/-- The shift is logical: a 0 enters at bit 31 (R105). -/
theorem mixFn_getLsbD_31 (r : Word) (b : Bool) : (mixFn r b).getLsbD 31 = false := by
  rw [mixFn_getLsbD, if_neg (by decide)]
  exact BitVec.getLsbD_of_ge r 32 le_rfl

/-- Bit 24 holds `r[25]` after the shift, so where that is 0 the OR leaves the injected bit alone (R105). -/
theorem mixFn_getLsbD_24 {r : Word} (b : Bool) (h : r.getLsbD 25 = false) :
    (mixFn r b).getLsbD 24 = feedback r b := by
  rw [mixFn_getLsbD, if_pos rfl, h, Bool.false_or]

/-- Settles O14: the formula is the definition's, its two ends are bits of `mixFn_getLsbD`, and the corner cases are
computed. -/
theorem mixFormula : Obligations.MixFormula := by
  refine ⟨fun r b => ⟨mixFn_eq r b, mixFn_getLsbD_31 r b, fun h => ?_⟩, ?cornerCases⟩
  · rw [mixFn_getLsbD_24 b h, feedback_eq]
  case cornerCases => decide

/-! ## The end of a mix's write -/

/-- With no mix in flight there is nothing to commit (R107, R77). -/
theorem exec_mixCommit_of_none {s : State} (h : s.mix = none) :
    exec .mixCommit s = .refused (.notEnabled .mixCommit) := by
  have hdis : enabled .mixCommit s = false := by simp [enabled, h]
  rw [exec_eq_takeEvent, takeEvent_of_not_enabled hdis]

/-- With a mix in flight the commit runs, and `RR` becomes its new value (R108). -/
theorem exec_mixCommit_of_some {s : State} {m : InFlight} (h : s.mix = some m) :
    exec .mixCommit s = .next { s with rr := m.new, mix := none } := by
  have hen : enabled .mixCommit s = true := by simp [enabled, h]
  rw [exec_of_enabled hen, effect, commitMix_some h]

/-- Settles O19: the word decodes in both variants, and whether a mix is in flight decides between refusal and commit. -/
theorem mixCommitFollowsItsRule : Obligations.MixCommitFollowsItsRule :=
  ⟨fun _ => rfl, fun _ => ⟨exec_mixCommit_of_none, fun _ h => exec_mixCommit_of_some h⟩⟩

end Sys2Proof.Machine
end

section
/-! SUPPORT. The transport family (41_transport.md): the two chip-select edges (R121, R124). -/

namespace Sys2Proof.Machine

/-! ## Select -/

/-- Every state takes a falling edge (R121). -/
theorem exec_csFall (s : State) : exec .csFall s = .next (selectEffect s) := exec_of_enabled rfl

/-- The re-arm where a select resets the pending count (R121, R123). -/
theorem selectEffect_of_countReset {s : State}
    (h : s.cfg.variant = .A ∧ s.cfg.countResetOnSelect = true) :
    selectEffect s =
      { s with sel := .active, cnt := 0#3, ovf := false, bcIe := true, doEn := true, count := 0#2 } := by
  rw [selectEffect, if_pos h]

/-- The re-arm where a select keeps the pending count (R121, R123). -/
theorem selectEffect_of_not_countReset {s : State}
    (h : ¬ (s.cfg.variant = .A ∧ s.cfg.countResetOnSelect = true)) :
    selectEffect s = { s with sel := .active, cnt := 0#3, ovf := false, bcIe := true, doEn := true } := by
  rw [selectEffect, if_neg h]

/-- Settles O26: the word decodes in both variants, the edge is always taken, and the configuration decides whether the
re-arm resets the count. -/
theorem csFallFollowsItsRule : Obligations.CsFallFollowsItsRule := by
  refine ⟨fun _ => rfl, fun s => ⟨fun hreset => ?_, fun hkeep => ?_⟩⟩
  · rw [exec_csFall, selectEffect_of_countReset hreset]
  · rw [exec_csFall, selectEffect_of_not_countReset hkeep]

/-! ## Deselect -/

/-- Every state takes a rising edge (R124). -/
theorem exec_csRise (s : State) : exec .csRise s = .next (deselectEffect s) := exec_of_enabled rfl

/-- Settles O27: the word decodes in both variants, the edge is always taken, and `deselectEffect` is the disarm that
the statement writes out. -/
theorem csRiseFollowsItsRule : Obligations.CsRiseFollowsItsRule :=
  ⟨fun _ => rfl, exec_csRise⟩

end Sys2Proof.Machine
end

section
/-! SUPPORT. The byte shifter family (42_byte_shifter.md): the byte-complete handler of each variant (R146, R150). -/

namespace Sys2Proof.Machine

/-! ## When the handler runs -/

theorem handlerReady_iff {s : State} : handlerReady s = true ↔ s.ovf = true ∧ s.bcIe = true := by
  rw [handlerReady, Bool.and_eq_true]

theorem enabled_byteCompleteA_iff {s : State} :
    enabled .byteCompleteA s = true ↔ s.cfg.variant = .A ∧ s.ovf = true ∧ s.bcIe = true := by
  rw [enabled, Bool.and_eq_true, decide_eq_true_iff, handlerReady_iff]

theorem enabled_byteCompleteB_iff {s : State} :
    enabled .byteCompleteB s = true ↔ s.cfg.variant = .B ∧ s.ovf = true ∧ s.bcIe = true := by
  rw [enabled, Bool.and_eq_true, decide_eq_true_iff, handlerReady_iff]

/-- An instruction that is not enabled is refused (R77, R174). -/
theorem exec_of_not_enabled {i : Instr} {s : State} (h : ¬ enabled i s = true) :
    exec i s = .refused (.notEnabled i) := by
  rw [exec_eq_takeEvent, takeEvent_of_not_enabled (Bool.eq_false_of_not_eq_true h)]

/-! ## What the handler reads -/

/-- Exactly 1 and 2 are control bytes (R72). -/
theorem isControl_iff {rx : Byte} : isControl rx = true ↔ rx = 0x01#8 ∨ rx = 0x02#8 := by
  rw [isControl, Bool.or_eq_true, beq_iff_eq, beq_iff_eq]

theorem isControl_eq_false {rx : Byte} (h1 : rx ≠ 0x01#8) (h2 : rx ≠ 0x02#8) : isControl rx = false :=
  Bool.eq_false_of_not_eq_true fun h => (isControl_iff.1 h).elim h1 h2

/-- A read draws eight bits inside a mix window and none outside (R52). -/
theorem drawsAfterRead_eq (s : State) :
    drawsAfterRead s = if s.mix = none then s.draws else s.draws + 8 := by
  cases h : s.mix <;> simp [drawsAfterRead, h]

/-! ## Variant A -/

/-- With its interrupt pending and enabled, the Variant-A handler runs (R144, R146). -/
theorem exec_byteCompleteA {s : State} (hA : s.cfg.variant = .A) (hovf : s.ovf = true) (hie : s.bcIe = true) :
    exec .byteCompleteA s = .next (handlerA s) :=
  exec_of_enabled (enabled_byteCompleteA_iff.2 ⟨hA, hovf, hie⟩)

/-- Settles O35: R174 decides between refusal and the handler, and the handler's branch on the received byte and on
the pending count decides what it does. -/
theorem byteCompleteAFollowsItsRule : Obligations.ByteCompleteAFollowsItsRule := by
  refine ⟨rfl, fun s hA => ⟨fun hnot => ?notReady, fun hovf hie => ?ready⟩⟩
  case notReady => exact exec_of_not_enabled fun hen => hnot (enabled_byteCompleteA_iff.1 hen).2
  case ready =>
    have hexec := exec_byteCompleteA hA hovf hie
    refine ⟨fun hctrl => ?control, fun h1 h2 => ⟨fun hpending => ?load, fun hidle => ?idle⟩⟩
    case control => rw [hexec, handlerA_control (isControl_iff.2 hctrl)]; rfl
    case load =>
      rw [hexec, handlerA_data (isControl_eq_false h1 h2), dataEffect_load hpending, drawsAfterRead_eq]
    case idle => rw [hexec, handlerA_data (isControl_eq_false h1 h2), dataEffect_idle hidle]

/-! ## Variant B -/

/-- With its interrupt pending and enabled, the Variant-B handler runs (R144, R150). -/
theorem exec_byteCompleteB {s : State} (hB : s.cfg.variant = .B) (hovf : s.ovf = true) (hie : s.bcIe = true) :
    exec .byteCompleteB s = .next (handlerB s) :=
  exec_of_enabled (enabled_byteCompleteB_iff.2 ⟨hB, hovf, hie⟩)

theorem handlerB_eq (s : State) :
    handlerB s = { s with shift := readRRByte 0#2 s, ovf := false, draws := drawsAfterRead s } := rfl

/-- `SHIFT` is loaded before anything reads it, so the received byte has no effect (R150). -/
theorem handlerB_received (s : State) (b : Byte) : handlerB { s with shift := b } = handlerB s := rfl

/-- Settles O36: R174 decides between refusal and the handler, whose one path is `handlerB_eq`. -/
theorem byteCompleteBFollowsItsRule : Obligations.ByteCompleteBFollowsItsRule := by
  refine ⟨rfl, fun s hB => ⟨fun hnot => ?notReady, fun hovf hie => ?ready⟩⟩
  case notReady => exact exec_of_not_enabled fun hen => hnot (enabled_byteCompleteB_iff.1 hen).2
  case ready =>
    refine ⟨?effect, fun b => ?received⟩
    case effect => rw [exec_byteCompleteB hB hovf hie, handlerB_eq, drawsAfterRead_eq]
    case received =>
      rw [exec_byteCompleteB hB hovf hie, ← handlerB_received s b]
      exact exec_byteCompleteB hB hovf hie

end Sys2Proof.Machine
end

section
/-! SUPPORT. The encodings (30_encoding.md): event words (R76, R77), the Variant-A received byte (R72, R73), and the
pseudo-events (R80). -/

namespace Sys2Proof

/-! ## Event words -/

/-- An event word is its operation, bits 3:1, and its operand, bit 0 (R76). -/
theorem eventWithOperand_fields (w : EventWord) : eventWithOperand (w.extractLsb' 1 3) (w.getLsbD 0) = w := by
  revert w; decide

/-- A decoded event word is the encoding of its event, and the variant has that event (R76, R144). -/
theorem decodeEvent_ok {v : Variant} {w : EventWord} {i : Instr} (h : decodeEvent v w = .ok i) :
    encode i = .event w ∧ WellFormed v i = true := by
  rw [← eventWithOperand_fields w]
  unfold decodeEvent at h
  simp only at h
  generalize w.getLsbD 0 = operand at h ⊢
  split at h
  case h_1 hop => cases h; rw [hop]; exact ⟨rfl, rfl⟩
  case h_5 hop => cases h; rw [hop]; exact ⟨rfl, rfl⟩
  case h_6 hop =>
    rw [hop]
    cases operand <;> cases v <;> cases h <;> exact ⟨rfl, rfl⟩
  case h_8 => cases h
  all_goals
    rename_i hop
    rw [hop]
    cases operand <;> cases h
    exact ⟨rfl, rfl⟩

/-- An event of a variant has a word, and the word decodes to it (R76, R144). -/
theorem decodeEvent_encode {v : Variant} {i : Instr} (hwf : WellFormed v i = true) (hev : i.isEvent = true) :
    ∃ w, encode i = .event w ∧ decodeEvent v w = .ok i := by
  cases i
  case tick n => exact ⟨_, rfl, by cases n <;> rfl⟩
  case sck d => exact ⟨_, rfl, by cases d <;> rfl⟩
  case byteCompleteA => rw [of_decide_eq_true hwf]; exact ⟨_, rfl, rfl⟩
  case byteCompleteB => rw [of_decide_eq_true hwf]; exact ⟨_, rfl, rfl⟩
  case mixCommit | csFall | csRise | reset => exact ⟨_, rfl, rfl⟩
  all_goals cases hev

/-- Whether a word spells an event does not depend on the variant (R77). -/
theorem decodeEvent_ok_anyVariant {v : Variant} {w : EventWord} {i : Instr} (h : decodeEvent v w = .ok i)
    (v' : Variant) : ∃ j, decodeEvent v' w = .ok j := by
  have hsame : ∀ x, (decodeEvent .B x).toOption.isSome = (decodeEvent .A x).toOption.isSome := by decide
  have hsome : (decodeEvent v' w).toOption.isSome = (decodeEvent v w).toOption.isSome := by
    cases v <;> cases v' <;> simp only [hsame]
  rw [h] at hsome
  cases hd : decodeEvent v' w with
  | ok j => exact ⟨j, rfl⟩
  | error r => rw [hd] at hsome; cases hsome

/-- The seven words of R77 spell no operation. -/
theorem decodeEvent_rejects {w : EventWord}
    (h : w ∈ [0b0011#4, 0b0101#4, 0b0111#4, 0b1011#4, 0b1101#4, 0b1110#4, 0b1111#4]) (v : Variant) :
    ∃ r, decodeEvent v w = .error r := by
  simp only [List.mem_cons, List.not_mem_nil, or_false] at h
  rcases h with rfl | rfl | rfl | rfl | rfl | rfl | rfl <;> exact ⟨_, rfl⟩

/-- Settles O1: the words are computed by `decodeEvent`; only 1010 looks at the variant. -/
theorem eventWordsDecode : Obligations.EventWordsDecode :=
  fun _ => ⟨rfl, rfl, rfl, rfl, rfl, rfl, rfl, rfl, rfl, rfl⟩

/-! ## The received byte -/

/-- Every received byte is the encoding of its row (R73). -/
theorem encode_decodeReceived (b : Byte) : encode (decodeReceived b) = .received b := by
  revert b; decide

/-- A row of the received byte is the row its encoding decodes to, at every value of its free bits (R73). -/
theorem decodeReceived_of_encode {i : Instr} {b : Byte} (h : encode i = .received b) : decodeReceived b = i := by
  cases i
  case ctrl1 | ctrl2 | data00 | data03 => cases h; rfl
  case data04to07 x | data08to0F x | data10to1F x | data20to3F x | data40to7F x | data80toFF x =>
    cases h; revert x; decide
  all_goals cases h

/-- The rows that are no events are those of the received byte, and only Variant A has them (R72, R74). -/
theorem encode_of_not_isEvent {v : Variant} {i : Instr} (hwf : WellFormed v i = true) (hev : i.isEvent = false) :
    v = .A ∧ ∃ b, encode i = .received b := by
  cases i
  case tick | mixCommit | csFall | csRise | sck | byteCompleteA | byteCompleteB | reset => cases hev
  all_goals exact ⟨of_decide_eq_true hwf, _, rfl⟩

/-- The decoder gives an instruction of Variant A. -/
theorem wellFormed_decodeReceived (b : Byte) : WellFormed .A (decodeReceived b) = true := by
  revert b; decide

/-- Exactly 1 and 2 are decoded to control rows (R72). -/
theorem decodeReceived_isControlRow (b : Byte) : (decodeReceived b).isControlRow = Machine.isControl b := by
  revert b; decide

/-- Every other byte is decoded to a data row (R73). -/
theorem decodeReceived_isDataRow (b : Byte) : (decodeReceived b).isDataRow = !Machine.isControl b := by
  revert b; decide

/-- Settles O5: one row of R73 for each of the 256 bytes. -/
theorem receivedByteRowsPartition : Obligations.ReceivedByteRowsPartition := by
  unfold Obligations.ReceivedByteRowsPartition
  decide

/-! ## Both at once -/

/-- Settles O3: an event by its word, a row of the received byte by the byte. -/
theorem decodeOfEncodeAgrees : Obligations.DecodeOfEncodeAgrees := by
  intro v i hwf
  cases hev : i.isEvent with
  | true =>
    obtain ⟨w, henc, hdec⟩ := decodeEvent_encode hwf hev
    rw [henc, decodeCode, hdec]
  | false =>
    obtain ⟨rfl, b, henc⟩ := encode_of_not_isEvent hwf hev
    rw [henc, decodeCode, decodeReceived_of_encode henc]

/-- Settles O4: an event word by its fields; a received byte decodes in Variant A alone. -/
theorem encodeOfDecodeAgrees : Obligations.EncodeOfDecodeAgrees := by
  intro v c i h
  cases c with
  | event w => exact decodeEvent_ok h
  | received b =>
    cases v with
    | A => cases h; exact ⟨encode_decodeReceived b, wellFormed_decodeReceived b⟩
    | B => cases h

/-! ## Pseudo-events -/

/-- The words of two lists of events are those of the first, then those of the second (R78). -/
theorem eventWords_append (is js : List Instr) : eventWords (is ++ js) = eventWords is ++ eventWords js := by
  induction is with
  | nil => rfl
  | cons i rest ih =>
    simp only [List.cons_append, eventWords]
    cases encode i <;> simp [ih]

/-- A clock pulse is the word 100d (R76). -/
theorem eventWords_pulses (ds : List Bool) :
    eventWords (ds.map .sck) = ds.map fun d => if d then 0b1001#4 else 0b1000#4 := by
  induction ds with
  | nil => rfl
  | cons d ds ih => rw [List.map_cons, List.map_cons, ← ih]; cases d <;> rfl

/-- Settles O6: the words of a unit's pulses, of the handler appended to them, and of a tick with its commit. -/
theorem pseudoEventsExpand : Obligations.PseudoEventsExpand := by
  intro v b n
  refine ⟨eventWords_pulses (bitsMsbFirst b), ?_, ?_⟩
  · rw [xferBc, eventWords_append]; cases v <;> rfl
  · cases n <;> rfl

end Sys2Proof
end

section
/-! SUPPORT. Which instructions run (R174, R77), and the byte-complete handler as the row of the received byte (R71,
R146). -/

namespace Sys2Proof.Machine

/-! ## When each instruction runs -/

theorem exec_runs_iff {i : Instr} {s : State} : (∃ t, exec i s = .next t) ↔ enabled i s = true :=
  ⟨fun ⟨_, h⟩ => (exec_next_iff.1 h).1, fun h => ⟨_, exec_of_enabled h⟩⟩

theorem enabled_tick_iff {n : Bool} {s : State} : enabled (.tick n) s = true ↔ s.mix = none := by
  rw [enabled, Option.isNone_iff_eq_none]

theorem enabled_mixCommit_iff {s : State} : enabled .mixCommit s = true ↔ s.mix ≠ none := by
  rw [enabled, Option.isSome_iff_ne_none]

/-- A row of the received byte runs where the Variant-A handler does, on its own byte (R71, R144). -/
theorem enabled_row_iff {i : Instr} {s : State} (hrow : i.isEvent = false) :
    enabled i s = true ↔
      s.cfg.variant = .A ∧ s.ovf = true ∧ s.bcIe = true ∧ encode i = .received s.shift := by
  have hunfold : enabled i s =
      (decide (s.cfg.variant = .A) && handlerReady s && decide (encode i = .received s.shift)) := by
    cases i
    case tick | mixCommit | csFall | csRise | sck | byteCompleteA | byteCompleteB | reset => cases hrow
    all_goals rfl
  rw [hunfold, Bool.and_eq_true, Bool.and_eq_true, decide_eq_true_iff, decide_eq_true_iff, handlerReady_iff, and_assoc,
    and_assoc]

/-- Settles O10: an instruction runs where it is enabled, which is the spec's condition kind by kind, and is refused by
name elsewhere. -/
theorem operationsEnabledExactly : Obligations.OperationsEnabledExactly := by
  intro i s
  refine ⟨exec_runs_iff.trans ?_, fun h => exec_of_not_enabled (mt exec_runs_iff.2 h)⟩
  cases i
  case tick => exact enabled_tick_iff
  case mixCommit => exact enabled_mixCommit_iff
  case csFall | csRise | sck | reset => exact iff_of_true rfl trivial
  case byteCompleteA => exact enabled_byteCompleteA_iff
  case byteCompleteB => exact enabled_byteCompleteB_iff
  all_goals exact enabled_row_iff rfl

/-- Only an instruction that the block's variant has can run (R74, R144). -/
theorem wellFormed_of_enabled {i : Instr} {s : State} (h : enabled i s = true) :
    WellFormed s.cfg.variant i = true := by
  cases i
  case tick | mixCommit | csFall | csRise | sck | reset => rfl
  case byteCompleteA => exact decide_eq_true (enabled_byteCompleteA_iff.1 h).1
  case byteCompleteB => exact decide_eq_true (enabled_byteCompleteB_iff.1 h).1
  all_goals exact decide_eq_true ((enabled_row_iff rfl).1 h).1

/-- A handler, whole or by its row, runs only where its interrupt is pending and enabled (R144). -/
theorem handlerReady_of_enabled {i : Instr} {s : State} (hi : i.isHandler = true) (h : enabled i s = true) :
    s.ovf = true ∧ s.bcIe = true := by
  cases i
  case tick | mixCommit | csFall | csRise | sck | reset => cases hi
  case byteCompleteA => exact (enabled_byteCompleteA_iff.1 h).2
  case byteCompleteB => exact (enabled_byteCompleteB_iff.1 h).2
  all_goals
    obtain ⟨-, hovf, hie, -⟩ := (enabled_row_iff rfl).1 h
    exact ⟨hovf, hie⟩

/-! ## The handler's rows -/

theorem isEvent_of_isControlRow {i : Instr} (h : i.isControlRow = true) : i.isEvent = false := by
  cases i
  case ctrl1 | ctrl2 => rfl
  all_goals cases h

theorem isEvent_of_isDataRow {i : Instr} (h : i.isDataRow = true) : i.isEvent = false := by
  cases i
  case tick | mixCommit | csFall | csRise | sck | byteCompleteA | byteCompleteB | reset | ctrl1 | ctrl2 => cases h
  all_goals rfl

/-- Every data row is a data clock (R73). -/
theorem effect_of_isDataRow {i : Instr} (h : i.isDataRow = true) : effect i = dataEffect := by
  cases i
  case tick | mixCommit | csFall | csRise | sck | byteCompleteA | byteCompleteB | reset | ctrl1 | ctrl2 => cases h
  all_goals rfl

/-- A received byte is in a row, so it is no event. -/
theorem decodeReceived_isEvent (b : Byte) : (decodeReceived b).isEvent = false := by
  cases hc : isControl b
  · exact isEvent_of_isDataRow (by rw [decodeReceived_isDataRow, hc]; rfl)
  · exact isEvent_of_isControlRow (by rw [decodeReceived_isControlRow, hc])

/-- The row of the byte in `SHIFT` does what the handler does (R146). -/
theorem effect_decodeReceived (s : State) : effect (decodeReceived s.shift) s = handlerA s := by
  cases hc : isControl s.shift with
  | false =>
    rw [handlerA_data hc, effect_of_isDataRow (by rw [decodeReceived_isDataRow, hc]; rfl)]
  | true =>
    rw [handlerA_control hc]
    rcases isControl_iff.1 hc with h | h <;> rw [h] <;> rfl

/-- A row runs on the byte that `SHIFT` holds, and does what the handler does there (R71, R146). -/
theorem exec_row {i : Instr} {s : State} (hrow : i.isEvent = false) (hbyte : encode i = .received s.shift)
    (hA : s.cfg.variant = .A) (hovf : s.ovf = true) (hie : s.bcIe = true) : exec i s = .next (handlerA s) := by
  rw [exec_of_enabled ((enabled_row_iff hrow).2 ⟨hA, hovf, hie, hbyte⟩), ← decodeReceived_of_encode hbyte,
    effect_decodeReceived]

theorem exec_decodeReceived {s : State} (hA : s.cfg.variant = .A) (hovf : s.ovf = true) (hie : s.bcIe = true) :
    exec (decodeReceived s.shift) s = .next (handlerA s) :=
  exec_row (decodeReceived_isEvent _) (encode_decodeReceived _) hA hovf hie

/-- On the byte just received the handler and that byte's row both run, and are the same (R71). -/
theorem exec_received {s : State} {b : Byte} (hbyte : s.shift = b) (hA : s.cfg.variant = .A) (hovf : s.ovf = true)
    (hie : s.bcIe = true) :
    exec .byteCompleteA s = exec (decodeReceived b) s ∧ ∃ t, exec (decodeReceived b) s = .next t := by
  subst hbyte
  have hrow := exec_decodeReceived hA hovf hie
  exact ⟨(exec_byteCompleteA hA hovf hie).trans hrow.symm, _, hrow⟩

/-- Settles O38: the handler and the row of the byte in `SHIFT` both run and answer `handlerA`. -/
theorem handlerRunsReceivedRow : Obligations.HandlerRunsReceivedRow :=
  fun _ => exec_received rfl

/-- Settles O39: the decoder's control rows are `isControl`, and a row on its byte is the handler's control branch. -/
theorem controlBytesSetTheCount : Obligations.ControlBytesSetTheCount := by
  refine ⟨fun b => ?_, fun b hb => ?_, fun s hA hovf hie => ⟨fun h1 => ?_, fun h2 => ?_⟩⟩
  · rw [decodeReceived_isControlRow, isControl_iff]
  · rcases hb with rfl | rfl <;> rfl
  · have hn : countOperand s.shift = 1#2 := by rw [h1]; rfl
    rw [exec_row rfl (by rw [h1]; rfl) hA hovf hie, handlerA_control (isControl_iff.2 (.inl h1)), hn]; rfl
  · have hn : countOperand s.shift = 2#2 := by rw [h2]; rfl
    rw [exec_row rfl (by rw [h2]; rfl) hA hovf hie, handlerA_control (isControl_iff.2 (.inr h2)), hn]; rfl

/-- Settles O40: every data row is `dataEffect`, whose branch on the count decides. -/
theorem dataBytesLoadIfPending : Obligations.DataBytesLoadIfPending := by
  intro i s hrow hbyte hA hovf hie
  have hexec : exec i s = .next (dataEffect s) := by
    rw [exec_of_enabled ((enabled_row_iff (isEvent_of_isDataRow hrow)).2 ⟨hA, hovf, hie, hbyte⟩),
      effect_of_isDataRow hrow]
  refine ⟨fun hidle => ?_, fun hpending => ?_⟩
  · rw [hexec, dataEffect_idle hidle]
  · rw [hexec, dataEffect_load hpending, drawsAfterRead_eq]

/-- Outside a mix window a pending count loads the register's own byte and draws nothing (R52, R147). -/
theorem dataEffect_load_whole {s : State} (hcount : s.count ≠ 0#2) (hmix : s.mix = none) :
    dataEffect s =
      { s with shift := byteOf s.rr (s.count - 1#2), count := s.count - 1#2, ovf := false } := by
  rw [dataEffect_load hcount, readRRByte_whole hmix, drawsAfterRead_whole hmix]

/-- Settles O41: a data byte loads byte `COUNT - 1`, which is byte 1 and then byte 0. -/
theorem requestedBytesInOrder : Obligations.RequestedBytesInOrder := by
  intro s hA hovf hie hmix h1 h2
  have hload (hcount : s.count ≠ 0#2) : exec .byteCompleteA s =
      .next { s with shift := byteOf s.rr (s.count - 1#2), count := s.count - 1#2, ovf := false } := by
    rw [exec_byteCompleteA hA hovf hie, handlerA_data (isControl_eq_false h1 h2), dataEffect_load_whole hcount hmix]
  refine ⟨fun hc => ?_, fun hc => ?_⟩ <;> rw [hload (by rw [hc]; decide), hc] <;> rfl

end Sys2Proof.Machine
end

section
/-! SUPPORT. The step (R14, R76), a run of steps, and placing a word at the fetch. -/

namespace Sys2Proof.Machine

/-! ## One step -/

/-- A word that spells no operation is refused (R77). -/
theorem step_of_reject {s : State} {w : EventWord} {rest : List EventWord} {r : Reject} (ht : s.trace = w :: rest)
    (hd : decodeEvent s.cfg.variant w = .error r) : step s = .refused (.noSuchEvent r) := by
  simp [step, ht, hd]

/-- Settles O7: `step_of_event`, and the wait of an empty trace. -/
theorem stepRunsDecodedEvent : Obligations.StepRunsDecodedEvent := by
  refine fun s => ⟨fun ht => ?_, fun w rest i ht hd => step_of_event ht hd⟩
  rw [step, ht]

/-- Settles O2: the seven words decode to nothing, and an event that cannot run is refused by `exec`. -/
theorem nonStepsAreRefused : Obligations.NonStepsAreRefused := by
  intro s w rest ht
  refine ⟨fun hw => ?_, fun i hd hno => ?_⟩
  · obtain ⟨r, hd⟩ := decodeEvent_rejects hw s.cfg.variant
    exact ⟨_, step_of_reject ht hd⟩
  · rw [step_of_event ht hd, exec_of_not_enabled (mt exec_runs_iff.2 hno)]

/-! ## A number of steps -/

theorem run_succ_of_step {s u : State} (h : step s = .next u) (k : Nat) :
    Host.Core.run core (k + 1) s = Host.Core.run core k u := by
  have hcore : core.step s = .next u := h
  simp only [Host.Core.run, hcore]

theorem step_of_run_succ {k : Nat} {s t : State} (h : Host.Core.run core (k + 1) s = .next t) :
    ∃ u, step s = .next u ∧ Host.Core.run core k u = .next t := by
  cases hs : step s with
  | next u => exact ⟨u, rfl, (run_succ_of_step hs k).symm.trans h⟩
  | fault r => cases r
  | refused r =>
    have hcore : core.step s = .refused r := hs
    simp only [Host.Core.run, hcore] at h
    cases h

/-- No effect changes the parameters (R3, R34). -/
@[simp] theorem effect_cfg (i : Instr) (s : State) : (effect i s).cfg = s.cfg := by
  cases i <;> simp [effect]

theorem step_cfg {s t : State} (h : step s = .next t) : t.cfg = s.cfg := by
  rcases step_next_cases h with ⟨-, rfl⟩ | ⟨w, rest, i, -, -, hexec⟩
  · rfl
  · rw [(exec_next_iff.1 hexec).2, effect_cfg, popEvent_cfg]

/-- Settles O9, by induction on the number of steps. -/
theorem configurationIsFixed : Obligations.ConfigurationIsFixed := by
  intro k
  induction k with
  | zero => intro s t h; cases h; rfl
  | succ k ih =>
    intro s t h
    obtain ⟨u, hstep, hrun⟩ := step_of_run_succ h
    exact (ih u t hrun).trans (step_cfg hstep)

/-- An event that runs is what the step does where its word is next (R76). -/
theorem step_of_exec {i : Instr} {s u : State} (hev : i.isEvent = true) (h : exec i s = .next u)
    (is : List Instr) (rest : List EventWord) (n : Nat) :
    step { s with trace := eventWords (i :: is) ++ rest, index := n } =
      .next { u with trace := eventWords is ++ rest, index := n + 1 } := by
  obtain ⟨hen, rfl⟩ := exec_next_iff.1 h
  obtain ⟨w, henc, hdec⟩ := decodeEvent_encode (wellFormed_of_enabled hen) hev
  have hwords : eventWords (i :: is) = w :: eventWords is := by rw [eventWords, henc]
  rw [hwords, ← effect_at, ← exec_of_enabled ((enabled_at i s _ _).trans hen)]
  exact step_of_event rfl hdec

/-- The steps along the words of a list of events, from any position (R24). -/
theorem run_eventWords {is : List Instr} {s t : State} (hev : ∀ i ∈ is, i.isEvent = true)
    (h : runInstrs is s = .next t) (rest : List EventWord) (n : Nat) :
    Host.Core.run core is.length { s with trace := eventWords is ++ rest, index := n } =
      .next { t with trace := rest, index := n + is.length } := by
  induction is generalizing s n with
  | nil => cases h; rfl
  | cons i is ih =>
    obtain ⟨u, hexec, hrun⟩ := runInstrs_cons_next.1 h
    obtain ⟨hi, his⟩ := List.forall_mem_cons.1 hev
    rw [List.length_cons, run_succ_of_step (step_of_exec hi hexec is rest n), ih his hrun (n + 1), Nat.add_right_comm,
      Nat.add_assoc]

/-- Settles O52: `run_eventWords` from the position of `s`. -/
theorem stepsFollowTheTrace : Obligations.StepsFollowTheTrace :=
  fun _ s _ rest hev h => run_eventWords hev h rest s.index

/-! ## Placing a word -/

/-- An event of the block's variant can run in the state that placing it leaves (R77, R174). -/
theorem enabled_makeReady {i : Instr} {s : State} (hwf : WellFormed s.cfg.variant i = true) (hev : i.isEvent = true) :
    enabled i (makeReady i s) = true := by
  cases hen : enabled i s with
  | true => rw [makeReady_of_enabled hen, hen]
  | false =>
    rw [makeReady_of_not_enabled hen]
    cases i
    case tick => exact enabled_tick_iff.2 (commitMix_mix s)
    case mixCommit => rfl
    case csFall | csRise | sck | reset => cases hen
    case byteCompleteA => exact enabled_byteCompleteA_iff.2 ⟨of_decide_eq_true hwf, rfl, rfl⟩
    case byteCompleteB => exact enabled_byteCompleteB_iff.2 ⟨of_decide_eq_true hwf, rfl, rfl⟩
    all_goals cases hev

/-- Where a handler is not enabled, placing it completes a unit of a selected block (R31, R144). -/
theorem meetCondition_of_isHandler {i : Instr} (hi : i.isHandler = true) (s : State) :
    meetCondition i s = { s with ovf := true, sel := .active, bcIe := true, doEn := true } := by
  cases i
  case tick | mixCommit | csFall | csRise | sck | reset => cases hi
  all_goals rfl

/-- Settles O51: `makeReady` does nothing where the event is enabled, and `meetCondition` elsewhere. -/
theorem placingOnlyEnables : Obligations.PlacingOnlyEnables := by
  refine fun s i => ⟨makeReady_of_enabled, fun n m hm => ?tick, fun hm => ?commit, fun hi hno => ?handler,
    enabled_makeReady, fun _ => rfl⟩
  case tick =>
    have hno : enabled (.tick n) s = false := by simp [enabled, hm]
    rw [makeReady_of_not_enabled hno, meetCondition, commitMix_some hm]
  case commit =>
    have hno : enabled .mixCommit s = false := by simp [enabled, hm]
    rw [makeReady_of_not_enabled hno, meetCondition]
  case handler => rw [makeReady_of_not_enabled hno, meetCondition_of_isHandler hi]

/-- A word that spells an event is read as that event, its size given in bits or in whole bytes. -/
theorem tableCode_event {v : Variant} {w : EventWord} {i : Instr} {nbits : Nat} (hbits : nbits = 4 ∨ nbits = 8)
    (hd : decodeEvent v w = .ok i) : tableCode nbits w.toNat = some (.event w) := by
  have hlt : w.toNat < 16 := w.isLt
  obtain ⟨j, hj⟩ := decodeEvent_ok_anyVariant hd Cfg.default.variant
  rcases hbits with rfl | rfl <;> simp [tableCode, hlt, hj]

/-- A byte that spells no event is read as a received byte. -/
theorem tableCode_received {b : Byte}
    (hno : ∀ (w : EventWord) (i : Instr), w.toNat = b.toNat → decodeEvent .A w ≠ .ok i) :
    tableCode 8 b.toNat = some (.received b) := by
  have hb : b.toNat < 256 := b.isLt
  by_cases hlt : b.toNat < 16
  · have hw : (BitVec.ofNat 4 b.toNat).toNat = b.toNat := by rw [BitVec.toNat_ofNat]; exact Nat.mod_eq_of_lt hlt
    cases hd : decodeEvent Cfg.default.variant (BitVec.ofNat 4 b.toNat) with
    | ok i => exact absurd hd (hno _ i hw)
    | error r =>
      have hb8 : BitVec.ofNat 8 b.toNat = b := by rw [BitVec.ofNat_toNat, BitVec.setWidth_eq]
      rw [tableCode, if_neg (by decide), if_pos hlt, hd, hb8]
  · simp [tableCode, hlt, hb]

/-- The event of a word put before the trace is the next step, one position further. -/
theorem step_of_placed {s : State} {w : EventWord} {i : Instr} (hd : decodeEvent s.cfg.variant w = .ok i) :
    step { s with trace := w :: s.trace } = exec i { s with index := s.index + 1 } := step_of_event rfl hd

/-- An event placed at the fetch is the very next step (R76). -/
theorem step_withFetchWord_event {s : State} {w : EventWord} {i : Instr} {nbits : Nat} (hbits : nbits = 4 ∨ nbits = 8)
    (hd : decodeEvent s.cfg.variant w = .ok i) :
    step (s.withFetchWord nbits w.toNat) = exec i { makeReady i s with index := s.index + 1 } := by
  have hplace : s.withFetchWord nbits w.toNat = { makeReady i s with trace := w :: s.trace } := by
    simp [State.withFetchWord, placeTableWord, tableCode_event hbits hd, placeCode, hd]
  have hdec : decodeEvent (makeReady i s).cfg.variant w = .ok i := by rw [makeReady_cfg, hd]
  rw [hplace]
  simpa using step_of_placed hdec

/-- A received byte placed at the fetch makes the Variant-A handler the very next step (R71). -/
theorem step_withFetchWord_received {s : State} {b : Byte}
    (hno : ∀ (w : EventWord) (i : Instr), w.toNat = b.toNat → decodeEvent .A w ≠ .ok i) :
    step (s.withFetchWord 8 b.toNat) =
      exec .byteCompleteA { makeReady .byteCompleteA (receive b s) with index := s.index + 1 } := by
  have hplace : s.withFetchWord 8 b.toNat =
      { makeReady .byteCompleteA (receive b s) with trace := 0b1010#4 :: s.trace } := by
    simp [State.withFetchWord, placeTableWord, tableCode_received hno, placeCode]
  have hA : (makeReady .byteCompleteA (receive b s)).cfg.variant = .A := by simp [receive]
  have hdec : decodeEvent (makeReady .byteCompleteA (receive b s)).cfg.variant 0b1010#4 = .ok .byteCompleteA := by
    rw [hA]; rfl
  rw [hplace]
  simpa [receive] using step_of_placed hdec

/-- The byte placed is the one in `SHIFT`. -/
theorem makeReady_receive_shift (b : Byte) (s : State) : (makeReady .byteCompleteA (receive b s)).shift = b := by
  unfold makeReady; split <;> rfl

/-- Settles O8: the placed word is what `step` decodes, and `makeReady` has enabled it. -/
theorem placedTableWordRuns : Obligations.PlacedTableWordRuns := by
  refine ⟨fun s nbits w i hbits hd => ?event, fun s b hno => ?received⟩
  case event =>
    refine ⟨step_withFetchWord_event hbits hd, exec_runs_iff.2 ?_⟩
    obtain ⟨henc, hwf⟩ := decodeEvent_ok hd
    have hev : i.isEvent = true := by
      by_contra hrow
      obtain ⟨-, b, hb⟩ := encode_of_not_isEvent hwf (Bool.eq_false_of_not_eq_true hrow)
      cases henc.symm.trans hb
    exact (enabled_at i (makeReady i s) _ _).trans (enabled_makeReady hwf hev)
  case received =>
    have hready : enabled .byteCompleteA (makeReady .byteCompleteA (receive b s)) = true :=
      enabled_makeReady (by simp [receive, WellFormed]) rfl
    obtain ⟨hA, hovf, hie⟩ := enabled_byteCompleteA_iff.1 hready
    have hstep := step_withFetchWord_received (s := s) hno
    obtain ⟨hsame, t, ht⟩ :=
      exec_received (s := { makeReady .byteCompleteA (receive b s) with index := s.index + 1 })
        (makeReady_receive_shift b s) hA hovf hie
    exact ⟨hstep, hstep.trans hsame, t, hstep.trans (hsame.trans ht)⟩

end Sys2Proof.Machine
end

section
/-! SUPPORT. The mixer as a shift register (40_entropy.md section 5): what one mix, and a list of them, do to each bit. -/

namespace Sys2Proof.Machine

/-! ## One mix -/

/-- Bits 31:25 of a word are zero (R20, R110). -/
theorem padding_iff {r : Word} : r.extractLsb' 25 7 = 0#7 ↔ ∀ i, 25 ≤ i → r.getLsbD i = false := by
  constructor
  · intro h i hi
    rcases Nat.lt_or_ge i 32 with hlt | hge
    · have hbit : (r.extractLsb' 25 7).getLsbD (i - 25) = false := by rw [h, BitVec.getLsbD_zero]
      have hlt' : i - 25 < 7 := by omega
      have hback : 25 + (i - 25) = i := by omega
      simpa [BitVec.getLsbD_extractLsb', hlt', hback] using hbit
    · exact BitVec.getLsbD_of_ge r i hge
  · intro h
    refine BitVec.eq_of_getLsbD_eq fun i _ => ?_
    rw [BitVec.getLsbD_extractLsb', h (25 + i) (Nat.le_add_right 25 i), Bool.and_false, BitVec.getLsbD_zero]

/-- Bits 31:25 stay zero (R110). -/
theorem mixFn_padding {r : Word} (b : Bool) (h : r.extractLsb' 25 7 = 0#7) :
    (mixFn r b).extractLsb' 25 7 = 0#7 := by
  rw [padding_iff] at h ⊢
  intro i hi
  rw [mixFn_getLsbD, if_neg (by omega), h (i + 1) (by omega)]

/-- With the padding zero, bit 24 after a mix is the injected bit (R105). -/
theorem mixFn_top {r : Word} (b : Bool) (h : r.extractLsb' 25 7 = 0#7) :
    (mixFn r b).getLsbD 24 = (b ^^ r.getLsbD 0 ^^ r.getLsbD 3) := by
  rw [mixFn_getLsbD_24 b (padding_iff.1 h 25 le_rfl), feedback_eq]

/-- The input bit that makes a mix inject the bit `c`. -/
def inputFor (r : Word) (c : Bool) : Bool := c ^^ r.getLsbD 0 ^^ r.getLsbD 3

theorem mixFn_inputFor {r : Word} (c : Bool) (h : r.extractLsb' 25 7 = 0#7) :
    (mixFn r (inputFor r c)).getLsbD 24 = c := by
  rw [mixFn_top _ h, inputFor]
  cases c <;> cases r.getLsbD 0 <;> cases r.getLsbD 3 <;> rfl

/-- Every bit below 24 comes from the place above (R105). -/
theorem mixFn_below_top (r : Word) (b : Bool) {i : Nat} (hi : i < 24) :
    (mixFn r b).getLsbD i = r.getLsbD (i + 1) := by
  rw [mixFn_getLsbD, if_neg (by omega)]

/-- Settles O15, by the bits of `mixFn_getLsbD`. -/
theorem mixKeepsPaddingZero : Obligations.MixKeepsPaddingZero :=
  fun r b h => ⟨mixFn_padding b h, mixFn_top b h, fun _ hi => mixFn_below_top r b hi⟩

/-! ## A list of mixes -/

theorem foldl_mixFn_padding (bs : List Bool) {r : Word} (h : r.extractLsb' 25 7 = 0#7) :
    (bs.foldl mixFn r).extractLsb' 25 7 = 0#7 := by
  induction bs generalizing r with
  | nil => exact h
  | cons b bs ih => exact ih (mixFn_padding b h)

/-- `n` mixes move bit `i + n` down to bit `i`. -/
theorem foldl_mixFn_getLsbD (bs : List Bool) (r : Word) {i : Nat} (hi : i + bs.length < 25) :
    (bs.foldl mixFn r).getLsbD i = r.getLsbD (i + bs.length) := by
  induction bs generalizing r with
  | nil => rfl
  | cons b bs ih =>
    rw [List.length_cons] at hi
    rw [List.foldl_cons, ih _ (by omega), mixFn_below_top r b (by omega), List.length_cons, Nat.add_assoc]

/-- The first bit of at most 25 ends where it is still to be seen, XORed with the taps of the start. -/
theorem foldl_mixFn_first (b : Bool) (bs : List Bool) {r : Word} (hr : r.extractLsb' 25 7 = 0#7)
    (hlen : bs.length ≤ 24) :
    ((b :: bs).foldl mixFn r).getLsbD (24 - bs.length) = (b ^^ r.getLsbD 0 ^^ r.getLsbD 3) := by
  rw [List.foldl_cons, foldl_mixFn_getLsbD bs _ (by omega), Nat.sub_add_cancel hlen, mixFn_top b hr]

/-- At most 25 input bits are determined by where they lead. -/
theorem foldl_mixFn_injective {bs bs' : List Bool} {r : Word} (hr : r.extractLsb' 25 7 = 0#7)
    (hlen : bs'.length = bs.length) (hle : bs.length ≤ 25) (h : bs'.foldl mixFn r = bs.foldl mixFn r) : bs' = bs := by
  induction bs generalizing bs' r with
  | nil => exact List.length_eq_zero_iff.1 hlen
  | cons b bs ih =>
    cases bs' with
    | nil => cases hlen
    | cons b' bs' =>
      rw [List.length_cons, List.length_cons, Nat.add_right_cancel_iff] at hlen
      rw [List.length_cons] at hle
      have hfirst : (b' ^^ r.getLsbD 0 ^^ r.getLsbD 3) = (b ^^ r.getLsbD 0 ^^ r.getLsbD 3) := by
        rw [← foldl_mixFn_first b bs hr (by omega), ← foldl_mixFn_first b' bs' hr (by omega), h, hlen]
      have hb : b' = b := by simpa using hfirst
      subst hb
      rw [ih (mixFn_padding b' hr) hlen (by omega) h]

/-- `n` input bits lead to any value whose low bits are the register's, moved down by `n`: each injects the bit of the
target that it ends at. -/
theorem exists_foldl_mixFn_eq (n : Nat) {r t : Word} (hr : r.extractLsb' 25 7 = 0#7) (ht : t.extractLsb' 25 7 = 0#7)
    (hn : n ≤ 25) (hlow : ∀ i, i + n < 25 → t.getLsbD i = r.getLsbD (i + n)) :
    ∃ bs : List Bool, bs.length = n ∧ bs.foldl mixFn r = t := by
  induction n generalizing r with
  | zero =>
    refine ⟨[], rfl, BitVec.eq_of_getLsbD_eq fun i _ => ?_⟩
    rcases Nat.lt_or_ge i 25 with hi | hi
    · exact (hlow i hi).symm
    · rw [List.foldl_nil, padding_iff.1 hr i hi, padding_iff.1 ht i hi]
  | succ n ih =>
    let b := inputFor r (t.getLsbD (24 - n))
    have hlow' : ∀ i, i + n < 25 → t.getLsbD i = (mixFn r b).getLsbD (i + n) := by
      intro i hi
      rcases Nat.lt_or_eq_of_le (show i + n ≤ 24 by omega) with hlt | htop
      · rw [mixFn_below_top r b hlt, hlow i (by omega), Nat.add_assoc]
      · have hi' : i = 24 - n := by omega
        rw [htop, mixFn_inputFor _ hr, hi']
    obtain ⟨bs, hlen, hbs⟩ := ih (mixFn_padding b hr) (by omega) hlow'
    exact ⟨b :: bs, by rw [List.length_cons, hlen], hbs⟩

/-- Settles O16: with 25 bits nothing of the register is left, so they exist, and they are determined. -/
theorem mixerIsControllable : Obligations.MixerIsControllable := by
  intro r t hr ht
  obtain ⟨bs, hlen, hbs⟩ := exists_foldl_mixFn_eq 25 hr ht le_rfl fun i hi => absurd hi (by omega)
  exact ⟨bs, hlen, hbs, fun bs' hlen' hbs' =>
    foldl_mixFn_injective hr (hlen'.trans hlen.symm) hlen.le (hbs'.trans hbs.symm)⟩

/-! ## Without input -/

/-- Mixing 0 again and again is mixing a list of zeros. -/
theorem iterate_mixFn_false (n : Nat) (r : Word) :
    (fun x => mixFn x false)^[n] r = (List.replicate n false).foldl mixFn r := by
  induction n generalizing r with
  | zero => rfl
  | succ n ih => rw [Function.iterate_succ_apply, ih, List.replicate_succ, List.foldl_cons]

/-- The low bit after `n` mixes is bit `n` of the register. -/
theorem iterate_mixFn_false_low {n : Nat} (hn : n < 25) (r : Word) :
    ((fun x => mixFn x false)^[n] r).getLsbD 0 = r.getLsbD n := by
  rw [iterate_mixFn_false, foldl_mixFn_getLsbD _ r (by simpa using hn), List.length_replicate, Nat.zero_add]

/-- Settles O17: 24 mixes after the one that injected it, the XOR of the taps is the low bit. -/
theorem unperturbedRecurrence : Obligations.UnperturbedRecurrence := by
  intro r j hr
  generalize hx : (fun x => mixFn x false)^[j] r = x
  have hpad : x.extractLsb' 25 7 = 0#7 := by rw [← hx, iterate_mixFn_false]; exact foldl_mixFn_padding _ hr
  have hlater (n : Nat) : (fun x => mixFn x false)^[j + n] r = (fun x => mixFn x false)^[n] x := by
    rw [Nat.add_comm, Function.iterate_add_apply, hx]
  have h25 : ((fun x => mixFn x false)^[25] x).getLsbD 0 = (mixFn x false).getLsbD 24 := by
    rw [Function.iterate_succ_apply, iterate_mixFn_false_low (by decide)]
  rw [hlater 25, hlater 3, h25, mixFn_top false hpad, Bool.false_xor, iterate_mixFn_false_low (by decide)]

end Sys2Proof.Machine
end

section
/-! SUPPORT. The debiaser (40_entropy.md sections 1 to 4): a tick by what the latch holds, and the bits it sends to the
mixer. -/

namespace Sys2Proof.Machine

/-! ## A tick by the latch -/

/-- What the latch can hold when the sample is `n`. -/
theorem latch_cases (n : Bool) (s : State) :
    s.latch = .empty ∨ s.latch = .captured n ∨ ∃ prev, s.latch = .captured prev ∧ prev ≠ n := by
  cases hl : s.latch with
  | empty => exact .inl rfl
  | captured prev =>
    by_cases h : prev = n
    · exact .inr (.inl (by rw [h]))
    · exact .inr (.inr ⟨prev, rfl, h⟩)

theorem tickEffect_of_empty {n : Bool} {s : State} (hl : s.latch = .empty) :
    tickEffect n s = { s with latch := .captured n } := by simp only [tickEffect, hl]

theorem tickEffect_of_equal {n : Bool} {s : State} (hl : s.latch = .captured n) :
    tickEffect n s = { s with latch := .captured n } := by simp [tickEffect, hl]

theorem tickEffect_of_unequal {n prev : Bool} {s : State} (hl : s.latch = .captured prev) (hne : prev ≠ n) :
    tickEffect n s = startMix prev { s with latch := .empty } := by simp [tickEffect, hl, Ne.symm hne]

theorem exec_tick {n : Bool} {s : State} (hm : s.mix = none) : exec (.tick n) s = .next (tickEffect n s) :=
  exec_of_enabled (enabled_tick_iff.2 hm)

/-- Settles O11: the mix in flight decides between refusal and tick, the latch and the build decide what a tick does. -/
theorem tickFollowsItsRule : Obligations.TickFollowsItsRule := by
  refine ⟨fun v n => by cases n <;> rfl, fun n s => ⟨fun hm => ?_, fun hm => ⟨fun hl => ?_, fun hl => ?_, ?_⟩⟩⟩
  · exact exec_of_not_enabled (mt enabled_tick_iff.1 hm)
  · rw [exec_tick hm, tickEffect_of_empty hl]
  · rw [exec_tick hm, tickEffect_of_equal hl]
  · intro prev hl hne
    rw [exec_tick hm, tickEffect_of_unequal hl hne]
    exact ⟨fun ha => congrArg _ (startMix_atomic (s := { s with latch := .empty }) ha),
      fun ha => congrArg _ (startMix_windowed (s := { s with latch := .empty }) ha)⟩

/-! ## The settled register -/

theorem settledRR_of_none {s : State} (h : s.mix = none) : settledRR s = s.rr := by simp only [settledRR, h]

/-- In either build a mix that starts is the mix of the register, once settled (R106). -/
theorem settledRR_startMix {s : State} (h : s.mix = none) (e : Bool) : settledRR (startMix e s) = mixFn s.rr e := by
  cases ha : s.cfg.atomicMix
  · rw [startMix_windowed ha]; rfl
  · rw [startMix_atomic ha]; exact settledRR_of_none h

/-- The commit writes what was settled already (R108). -/
theorem settledRR_commitMix (s : State) : settledRR (commitMix s) = settledRR s := by
  cases hm : s.mix with
  | none => rw [commitMix_none hm]
  | some m => rw [commitMix_some hm]; simp only [settledRR, hm]

/-- Settles O12, by what the latch holds. -/
theorem unequalPairsMixAndNoOthers : Obligations.UnequalPairsMixAndNoOthers := by
  intro n s t h
  obtain ⟨hen, rfl⟩ := exec_next_iff.1 h
  have hm := enabled_tick_iff.1 hen
  rcases latch_cases n s with hl | hl | ⟨prev, hl, hne⟩
  · simp [effect, tickEffect_of_empty hl, hl, hm]
  · simp [effect, tickEffect_of_equal hl, hl, hm]
  · have hsettled := settledRR_startMix (s := { s with latch := .empty }) hm prev
    simp [effect, tickEffect_of_unequal hl hne, hl, hne, hsettled]

/-! ## The bits a run sends to the mixer -/

/-- An unequal pair sends the latched bit (R101, D5). -/
theorem emittedBit_of_unequal {n prev : Bool} {s : State} (hl : s.latch = .captured prev) (hne : prev ≠ n) :
    emittedBit (.tick n) s = some prev := by simp [emittedBit, hl, Ne.symm hne]

theorem emittedBit_of_equal {n : Bool} {s : State} (hl : s.latch = .captured n) : emittedBit (.tick n) s = none := by
  simp [emittedBit, hl]

theorem emittedBit_of_empty {i : Instr} {s : State} (hl : s.latch = .empty) : emittedBit i s = none := by
  cases i <;> simp only [emittedBit, hl]

theorem emittedBits_cons {i : Instr} {rest : List Instr} {s u : State} (h : exec i s = .next u) :
    emittedBits (i :: rest) s = (emittedBit i s).toList ++ emittedBits rest u := by simp only [emittedBits, h]

theorem emittedBits_append {is : List Instr} {s t : State} (h : runInstrs is s = .next t) (js : List Instr) :
    emittedBits (is ++ js) s = emittedBits is s ++ emittedBits js t := by
  induction is generalizing s with
  | nil => cases h; rfl
  | cons i is ih =>
    obtain ⟨u, hexec, hrun⟩ := runInstrs_cons_next.1 h
    rw [List.cons_append, emittedBits_cons hexec, emittedBits_cons hexec, ih hrun, List.append_assoc]

/-- Equal samples keep their bit pending: they change nothing and send nothing (R102). -/
theorem equal_ticks {b : Bool} {s : State} (hl : s.latch = .captured b) (hm : s.mix = none) (k : Nat) :
    runInstrs (List.replicate k (.tick b)) s = .next s ∧ emittedBits (List.replicate k (.tick b)) s = [] := by
  have hexec : exec (.tick b) s = .next s := by rw [exec_tick hm, tickEffect_of_equal hl, ← hl]
  induction k with
  | zero => exact ⟨rfl, rfl⟩
  | succ k ih =>
    obtain ⟨hrun, hbits⟩ := ih
    rw [List.replicate_succ]
    exact ⟨runInstrs_cons_next.2 ⟨s, hexec, hrun⟩, by rw [emittedBits_cons hexec, hbits, emittedBit_of_equal hl]; rfl⟩

/-- Settles O13: the first sample is latched, `equal_ticks` keeps it, and the last tick mixes it. -/
theorem firstSampleIsEmitted : Obligations.FirstSampleIsEmitted := by
  intro s b k hl hm
  let u : State := { s with latch := .captured b }
  have hfirst : exec (.tick b) s = .next u := by rw [exec_tick hm, tickEffect_of_empty hl]
  have hlast : exec (.tick !b) u = .next (startMix b { u with latch := .empty }) := by
    rw [exec_tick (s := u) hm, tickEffect_of_unequal (prev := b) rfl (by cases b <;> decide)]
  obtain ⟨hrun, hbits⟩ := equal_ticks (s := u) rfl hm k
  rw [List.replicate_succ, List.cons_append]
  refine ⟨_, runInstrs_cons_next.2 ⟨u, hfirst, ?_⟩, ?_,
    startMix_latch b { u with latch := .empty }, settledRR_startMix (s := { u with latch := .empty }) hm b⟩
  · rw [runInstrs_append hrun]
    exact runInstrs_cons_next.2 ⟨_, hlast, rfl⟩
  · rw [emittedBits_cons hfirst, emittedBit_of_empty hl, emittedBits_append hrun, hbits, emittedBits_cons hlast,
      emittedBit_of_unequal (prev := b) rfl (by cases b <;> decide)]
    rfl

end Sys2Proof.Machine
end

section
/-! SUPPORT. The entropy path apart from the transport path (20_memory.md section 5, 40_entropy.md section 5,
60_exceptions.md section 7). -/

namespace Sys2Proof.Machine

/-! ## The entropy part of the state -/

theorem entropyPart_eq_iff {s u : State} :
    entropyPart s = entropyPart u ↔ s.cfg = u.cfg ∧ s.rr = u.rr ∧ s.latch = u.latch ∧ s.mix = u.mix := by
  simp only [entropyPart, Prod.mk.injEq]

/-- A transport operation leaves the entropy part as it is (R35, R60). -/
theorem effect_entropyPart {i : Instr} (hi : i.isEntropy = false) (s : State) :
    entropyPart (effect i s) = entropyPart s := by
  rw [entropyPart_eq_iff]
  cases i
  case tick | mixCommit | reset => cases hi
  all_goals simp [effect]

theorem settledRR_congr {s u : State} (h : entropyPart s = entropyPart u) : settledRR s = settledRR u := by
  obtain ⟨-, hrr, -, hmix⟩ := entropyPart_eq_iff.1 h
  simp only [settledRR, hrr, hmix]

theorem startMix_entropyPart_congr {s u : State} (h : entropyPart s = entropyPart u) (e : Bool) :
    entropyPart (startMix e s) = entropyPart (startMix e u) := by
  obtain ⟨hcfg, hrr, hlatch, hmix⟩ := entropyPart_eq_iff.1 h
  cases ha : s.cfg.atomicMix
  · simp [startMix_windowed ha, startMix_windowed (hcfg ▸ ha), entropyPart, hcfg, hrr, hlatch]
  · simp [startMix_atomic ha, startMix_atomic (hcfg ▸ ha), entropyPart, hcfg, hrr, hlatch, hmix]

theorem tickEffect_entropyPart_congr {s u : State} (h : entropyPart s = entropyPart u) (n : Bool) :
    entropyPart (tickEffect n s) = entropyPart (tickEffect n u) := by
  obtain ⟨hcfg, hrr, hlatch, hmix⟩ := entropyPart_eq_iff.1 h
  rcases latch_cases n s with hl | hl | ⟨prev, hl, hne⟩
  · simp [tickEffect_of_empty hl, tickEffect_of_empty (hlatch ▸ hl), entropyPart, hcfg, hrr, hmix]
  · simp [tickEffect_of_equal hl, tickEffect_of_equal (hlatch ▸ hl), entropyPart, hcfg, hrr, hmix]
  · rw [tickEffect_of_unequal hl hne, tickEffect_of_unequal (hlatch ▸ hl) hne]
    refine startMix_entropyPart_congr ?_ prev
    simp only [entropyPart, hcfg, hrr, hmix]

theorem commitMix_entropyPart_congr {s u : State} (h : entropyPart s = entropyPart u) :
    entropyPart (commitMix s) = entropyPart (commitMix u) := by
  obtain ⟨hcfg, hrr, hlatch, hmix⟩ := entropyPart_eq_iff.1 h
  cases hm : s.mix with
  | none => rw [commitMix_none hm, commitMix_none (hmix ▸ hm), h]
  | some m => simp [commitMix_some hm, commitMix_some (hmix ▸ hm), entropyPart, hcfg, hlatch]

/-- What any operation does to the entropy part depends on the entropy part alone. -/
theorem effect_entropyPart_congr {s u : State} (h : entropyPart s = entropyPart u) (i : Instr) :
    entropyPart (effect i s) = entropyPart (effect i u) := by
  cases hi : i.isEntropy with
  | false => rw [effect_entropyPart hi, effect_entropyPart hi, h]
  | true =>
    cases i
    case tick n => exact tickEffect_entropyPart_congr h n
    case mixCommit => exact commitMix_entropyPart_congr h
    case reset => simp [effect, entropyPart, (entropyPart_eq_iff.1 h).1]
    all_goals cases hi

/-! ## A run's entropy part -/

/-- A run that answers has done the effect of each instruction, in order. -/
theorem runInstrs_eq_foldl {is : List Instr} {s t : State} (h : runInstrs is s = .next t) :
    t = is.foldl (fun x i => effect i x) s := by
  induction is generalizing s with
  | nil => cases h; rfl
  | cons i is ih =>
    obtain ⟨u, hexec, hrun⟩ := runInstrs_cons_next.1 h
    rw [ih hrun, (exec_next_iff.1 hexec).2, List.foldl_cons]

/-- The entropy part after a list of effects is that after its entropy operations, from any state that agrees on it. -/
theorem foldl_effect_entropyPart (is : List Instr) {s u : State} (h : entropyPart s = entropyPart u) :
    entropyPart (is.foldl (fun x i => effect i x) s) =
      entropyPart ((is.filter Instr.isEntropy).foldl (fun x i => effect i x) u) := by
  induction is generalizing s u with
  | nil => exact h
  | cons i is ih =>
    cases hi : i.isEntropy with
    | false =>
      rw [List.filter_cons_of_neg (by simp [hi]), List.foldl_cons]
      exact ih ((effect_entropyPart hi s).trans h)
    | true =>
      rw [List.filter_cons_of_pos hi, List.foldl_cons, List.foldl_cons]
      exact ih (effect_entropyPart_congr h i)

/-- Settles O20: both runs leave the entropy part that their common entropy operations leave. -/
theorem entropyPathIgnoresTransport : Obligations.EntropyPathIgnoresTransport := by
  intro is js s u t v hpart hops hs hu
  rw [runInstrs_eq_foldl hs, runInstrs_eq_foldl hu, foldl_effect_entropyPart is hpart, hops,
    foldl_effect_entropyPart js rfl]

/-! ## The register as a fold -/

/-- Any operation but a reset mixes into the settled register the bit it sends, if it sends one (R113). -/
theorem settledRR_effect {i : Instr} {s : State} (hi : i ≠ .reset) (hen : enabled i s = true) :
    settledRR (effect i s) = (emittedBit i s).toList.foldl mixFn (settledRR s) := by
  cases i
  case tick n =>
    have hm := enabled_tick_iff.1 hen
    rcases latch_cases n s with hl | hl | ⟨prev, hl, hne⟩
    · rw [emittedBit_of_empty hl, effect, tickEffect_of_empty hl]; rfl
    · rw [emittedBit_of_equal hl, effect, tickEffect_of_equal hl]; rfl
    · rw [emittedBit_of_unequal hl hne, effect, tickEffect_of_unequal hl hne, settledRR_of_none hm]
      exact settledRR_startMix (s := { s with latch := .empty }) hm prev
  case mixCommit => exact settledRR_commitMix s
  case reset => exact absurd rfl hi
  all_goals exact settledRR_congr (effect_entropyPart rfl s)

/-- Settles O18, by induction on the run: each step folds in the bit it sends. -/
theorem registerIsFoldOfEmittedBits : Obligations.RegisterIsFoldOfEmittedBits := by
  intro is
  induction is with
  | nil => intro s t _ h; cases h; rfl
  | cons i is ih =>
    intro s t hno h
    obtain ⟨hi, his⟩ := List.forall_mem_cons.1 hno
    obtain ⟨u, hexec, hrun⟩ := runInstrs_cons_next.1 h
    obtain ⟨hen, hu⟩ := exec_next_iff.1 hexec
    rw [ih u t his hrun, hu, settledRR_effect hi hen, ← List.foldl_append, ← hu, ← emittedBits_cons hexec]

/-! ## Neither path blocks the other -/

theorem enabled_of_isEntropy_congr {i : Instr} {s u : State} (hi : i.isEntropy = true) (hmix : s.mix = u.mix) :
    enabled i s = enabled i u := by
  cases i
  case tick | mixCommit => simp only [enabled, hmix]
  case reset => rfl
  all_goals cases hi

theorem enabled_of_transport_congr {i : Instr} {s u : State} (hi : i.isEntropy = false)
    (h : transportPart s = transportPart u) : enabled i s = enabled i u := by
  simp only [transportPart, Prod.mk.injEq] at h
  obtain ⟨hcfg, -, -, hovf, hie, -, -, hshift⟩ := h
  cases i
  case tick | mixCommit | reset => cases hi
  all_goals simp only [enabled, handlerReady, hcfg, hovf, hie, hshift]

/-- Settles O21, by what `enabled` reads. -/
theorem pathsNeverBlockEachOther : Obligations.PathsNeverBlockEachOther := by
  refine fun i s u => ⟨fun hi hmix => ?_, fun hi h => ?_⟩
  · rw [exec_runs_iff, exec_runs_iff, enabled_of_isEntropy_congr hi hmix]
  · rw [exec_runs_iff, exec_runs_iff, enabled_of_transport_congr hi h]

/-! ## Fairness -/

/-- A mix in flight stays until it is committed or the block is reset: no tick runs in its window (R106). -/
theorem mix_stays {i : Instr} {s t : State} (hexec : exec i s = .next t) (hcommit : i ≠ .mixCommit)
    (hreset : i ≠ .reset) (hm : s.mix ≠ none) : t.mix ≠ none := by
  obtain ⟨hen, rfl⟩ := exec_next_iff.1 hexec
  cases hi : i.isEntropy with
  | false =>
    obtain ⟨-, -, -, hmix⟩ := entropyPart_eq_iff.1 (effect_entropyPart hi s)
    rwa [hmix]
  | true =>
    cases i
    case tick => exact absurd (enabled_tick_iff.1 hen) hm
    case mixCommit => exact absurd rfl hcommit
    case reset => exact absurd rfl hreset
    all_goals cases hi

/-- Settles O22: without a commit or a reset the mix stays, so the commit stays enabled and fairness takes it. -/
theorem pendingMixIsCommitted : Obligations.PendingMixIsCommitted := by
  intro σ ev hrun hfair k hmix
  by_contra hno
  have hnever : ∀ j, k ≤ j → ev j ≠ .mixCommit ∧ ev j ≠ .reset := fun j hj =>
    ⟨fun h => hno ⟨j, hj, .inl h⟩, fun h => hno ⟨j, hj, .inr h⟩⟩
  have hstays : ∀ j, k ≤ j → (σ j).mix ≠ none := by
    intro j hj
    induction j, hj using Nat.le_induction with
    | base => exact hmix
    | succ j hj ih => exact mix_stays (hrun.next j) (hnever j hj).1 (hnever j hj).2 ih
  obtain ⟨j, hj, hev⟩ := hfair.commit k fun j hj => enabled_mixCommit_iff.2 (hstays j hj)
  exact (hnever j hj).1 hev

end Sys2Proof.Machine
end

section
/-! SUPPORT. The byte read of the Random Register (R52, R53). -/

namespace Sys2Proof.Machine

/-- Inside a mix window the free bits of the read choose between the old and the new byte (R52). -/
theorem readRRByte_torn {k : BitVec 2} {s : State} {m : InFlight} (h : s.mix = some m) :
    readRRByte k s = tornByte (drawMask s.draws 8) (byteOf m.old k) (byteOf m.new k) := by
  simp only [readRRByte, h]

/-- Settles O23, bit by bit: the mask of a torn read holds the free bit of each draw. -/
theorem byteReadBits : Obligations.ByteReadBits := by
  refine fun k s i hi => ⟨fun hm => ?_, fun m hm => ?_⟩
  · rw [readRRByte_whole hm, byteOf_getLsbD _ _ _ hi]
  · rw [readRRByte_torn hm, tornByte_getLsbD _ _ _ _ hi, drawMask_getLsbD _ _ _ hi, byteOf_getLsbD _ _ _ hi,
      byteOf_getLsbD _ _ _ hi, decide_eq_true hi, Bool.true_and]

/-- Choosing bit by bit, written with XOR: the old byte changed where the choice is 1 and the two differ. -/
theorem tornByte_eq_xor (c o w : Byte) : tornByte c o w = o ^^^ (c &&& (o ^^^ w)) := by
  refine BitVec.eq_of_getLsbD_eq fun j hj => ?_
  rw [tornByte_getLsbD _ _ _ _ hj, BitVec.getLsbD_xor, BitVec.getLsbD_and, BitVec.getLsbD_xor]
  cases c.getLsbD j <;> cases o.getLsbD j <;> cases w.getLsbD j <;> rfl

/-- Settles O24: the mask is the read's own choices. -/
theorem tornReadMixesOldAndNew : Obligations.TornReadMixesOldAndNew :=
  fun k s m hm => ⟨drawMask s.draws 8, by rw [readRRByte_torn hm, tornByte_eq_xor]; rfl⟩

/-- Settles O25: an atomic build has no mix in flight. -/
theorem atomicBuildNeverTears : Obligations.AtomicBuildNeverTears :=
  fun _ _ hinv hatomic => readRRByte_whole (hinv.atomic hatomic)

end Sys2Proof.Machine
end

section
/-! SUPPORT. The serial engine (42_byte_shifter.md section 1): a list of pulses, stalled or shifting, and the unit of
eight. -/

namespace Sys2Proof.Machine

/-! ## One pulse -/

/-- Every state takes a pulse (R141). -/
theorem exec_sck (d : Bool) (s : State) : exec (.sck d) s = .next (pulseEffect d s) := exec_of_enabled rfl

/-- The buffer moved up by one place, as a shift and an OR (R141). -/
theorem shiftIn_eq_or (x : Byte) (d : Bool) : shiftIn x d = (x <<< 1) ||| (BitVec.ofBool d).setWidth 8 := by
  revert x d; decide

/-- From a clear flag the eighth bit alone sets it (R141). -/
theorem ovfNext_false (cnt : BitVec 3) : ovfNext cnt false = decide (cnt = 7#3) := by
  revert cnt; decide

/-- Settles O31: the word decodes in both variants, and the flag decides between a stalled and a shifting pulse. -/
theorem sckExchangesOneBit : Obligations.SckExchangesOneBit := by
  refine ⟨fun v d => by cases d <;> rfl, fun d s => ⟨fun hovf => ?_, fun hovf => ?_⟩⟩
  · rw [exec_sck, pulseEffect_stalled hovf]; rfl
  · rw [exec_sck, pulseEffect_shifting hovf, shiftIn_eq_or, ovfNext_false]; rfl

/-! ## Lists of pulses -/

/-- Settles O32, by induction on the list: a stalled pulse leaves the flag, `SHIFT` and the driver for the next. -/
theorem stalledPulsesChangeNothing : Obligations.StalledPulsesChangeNothing := by
  intro ds
  induction ds with
  | nil => intro s _; simp [runInstrs]
  | cons d ds ih =>
    intro s hovf
    have hpulse : exec (.sck d) s = .next (emit (outputLevel s) s) := by
      rw [exec_sck, pulseEffect_stalled hovf]; rfl
    rw [List.map_cons, runInstrs_cons_next]
    refine ⟨_, hpulse, ?_⟩
    rw [ih (emit (outputLevel s) s) hovf, emit_out, List.append_assoc]
    rfl

/-- The levels of a list of pulses from the buffer `x`, with the driver on or off (R141). -/
def pulseLevels (driven : Bool) (x : Byte) : List Bool → List DoLevel
  | [] => []
  | d :: ds => (if driven then .bit (x.getLsbD 7) else .z) :: pulseLevels driven (shiftIn x d) ds

/-- Where a list of pulses leads from a unit that it does not complete (R141). -/
def shiftedBy (ds : List Bool) (s : State) : State :=
  { s with
    shift := ds.foldl shiftIn s.shift
    cnt := s.cnt + BitVec.ofNat 3 ds.length
    out := s.out ++ pulseLevels s.doEn s.shift ds }

/-- A pulse short of the eighth exchanges a bit and counts it (R141). -/
theorem exec_sck_short {d : Bool} {s : State} (hovf : s.ovf = false) (hcnt : s.cnt.toNat < 7) :
    exec (.sck d) s = .next (shiftedBy [d] s) := by
  have hne : s.cnt ≠ 7#3 := fun h => by rw [h] at hcnt; exact absurd hcnt (by decide)
  rw [exec_sck, pulseEffect_shifting hovf]
  simp [shiftedBy, pulseLevels, outputLevel, cntNext, ovfNext, hne, hovf]

theorem shiftedBy_cons (d : Bool) (ds : List Bool) (s : State) :
    shiftedBy ds (shiftedBy [d] s) = shiftedBy (d :: ds) s := by
  have hcnt : s.cnt + 1#3 + BitVec.ofNat 3 ds.length = s.cnt + BitVec.ofNat 3 (ds.length + 1) := by
    rw [BitVec.add_assoc, ← BitVec.ofNat_add, Nat.add_comm 1]
  simp [shiftedBy, pulseLevels, hcnt]

/-- Pulses that do not complete the unit all exchange their bit. -/
theorem runInstrs_short_pulses {ds : List Bool} {s : State} (hovf : s.ovf = false)
    (hlen : s.cnt.toNat + ds.length < 8) : runInstrs (ds.map .sck) s = .next (shiftedBy ds s) := by
  induction ds generalizing s with
  | nil => simp [runInstrs, shiftedBy, pulseLevels]
  | cons d ds ih =>
    rw [List.length_cons] at hlen
    have hcnt : (shiftedBy [d] s).cnt.toNat = s.cnt.toNat + 1 := by
      simp only [shiftedBy, List.length_cons, List.length_nil, BitVec.toNat_add, BitVec.toNat_ofNat]; omega
    rw [List.map_cons, runInstrs_cons_next]
    refine ⟨_, exec_sck_short hovf (by omega), ?_⟩
    rw [ih (s := shiftedBy [d] s) hovf (by omega), shiftedBy_cons]

/-- Settles O34: the pulses exchange their bits, and the select clears the count of them. -/
theorem cutUnitIsAbandoned : Obligations.CutUnitIsAbandoned := by
  intro ds s hlen hcnt hovf
  have hpulses := runInstrs_short_pulses (ds := ds) hovf (by rw [hcnt]; simpa using hlen)
  have hshift : shiftIn = fun (x : Byte) d => (x <<< 1) ||| (BitVec.ofBool d).setWidth 8 := by
    funext x d; exact shiftIn_eq_or x d
  refine ⟨selectEffect (shiftedBy ds s), ?_, rfl, rfl, ?_, rfl, rfl, rfl⟩
  · rw [runInstrs_append hpulses]
    exact runInstrs_cons_next.2 ⟨_, exec_csFall _, rfl⟩
  · rw [selectEffect_shift, shiftedBy, hshift]

/-! ## The unit -/

theorem shiftIn_getElem (x : Byte) (d : Bool) (i : Nat) (hi : i < 8) :
    (shiftIn x d)[i] = if i = 0 then d else x[i - 1] := by
  simpa only [BitVec.getLsbD_eq_getElem, hi, Nat.lt_of_le_of_lt (Nat.sub_le i 1) hi] using shiftIn_getLsbD x d i hi

/-- Eight bits shifted in are the byte, whatever was there (R56, R71). -/
theorem foldl_shiftIn_bitsMsbFirst (x b : Byte) : (bitsMsbFirst b).foldl shiftIn x = b := by
  refine BitVec.eq_of_getLsbD_eq fun i hi => ?_
  simp only [bitsMsbFirst, List.foldl_cons, List.foldl_nil]
  have h : i = 0 ∨ i = 1 ∨ i = 2 ∨ i = 3 ∨ i = 4 ∨ i = 5 ∨ i = 6 ∨ i = 7 := by omega
  rcases h with rfl | rfl | rfl | rfl | rfl | rfl | rfl | rfl <;> simp [shiftIn_getElem]

/-- The levels of a unit are the bits of the old `SHIFT`, most significant first, or `Z` (R56, R141). -/
theorem pulseLevels_unit (driven : Bool) (x b : Byte) :
    pulseLevels driven x (bitsMsbFirst b) = if driven then sentByte x else List.replicate 8 .z := by
  cases driven
  · rfl
  · simp [pulseLevels, bitsMsbFirst, sentByte, shiftIn_getElem]

/-- The first seven bits of a unit. -/
def firstSeven (b : Byte) : List Bool :=
  [b.getLsbD 7, b.getLsbD 6, b.getLsbD 5, b.getLsbD 4, b.getLsbD 3, b.getLsbD 2, b.getLsbD 1]

theorem bitsMsbFirst_eq (b : Byte) : bitsMsbFirst b = firstSeven b ++ [b.getLsbD 0] := rfl

theorem pulseLevels_append (driven : Bool) (x : Byte) (ds es : List Bool) :
    pulseLevels driven x (ds ++ es) = pulseLevels driven x ds ++ pulseLevels driven (ds.foldl shiftIn x) es := by
  induction ds generalizing x with
  | nil => rfl
  | cons d ds ih => rw [List.cons_append, pulseLevels, ih, pulseLevels, List.foldl_cons, List.cons_append]

/-- Settles O33: seven short pulses, and the eighth that wraps the count and sets the flag. -/
theorem unitExchangesAByte : Obligations.UnitExchangesAByte := by
  intro b s hcnt hovf
  have hseven := runInstrs_short_pulses (ds := firstSeven b) hovf (by rw [hcnt]; exact Nat.lt_succ_self 7)
  have hlast : exec (.sck (b.getLsbD 0)) (shiftedBy (firstSeven b) s) =
      .next { s with
        shift := (bitsMsbFirst b).foldl shiftIn s.shift
        ovf := true
        out := s.out ++ pulseLevels s.doEn s.shift (bitsMsbFirst b) } := by
    rw [exec_sck, pulseEffect_shifting (s := shiftedBy (firstSeven b) s) hovf, bitsMsbFirst_eq, List.foldl_append,
      pulseLevels_append]
    simp [shiftedBy, hcnt, cntNext, ovfNext, firstSeven, outputLevel, pulseLevels]
  rw [foldl_shiftIn_bitsMsbFirst, pulseLevels_unit] at hlast
  rw [xfer, bitsMsbFirst_eq, List.map_append, runInstrs_append hseven]
  exact runInstrs_cons_next.2 ⟨_, hlast, rfl⟩

end Sys2Proof.Machine
end

section
/-! SUPPORT. Units with their handler, from a unit boundary of a selected block (42_byte_shifter.md section 2,
41_transport.md section 4). -/

namespace Sys2Proof.Machine

/-! ## One unit -/

/-- The state in which the handler of a unit runs: the byte received, the old `SHIFT` sent (R70, R142). -/
def unitDone (b : Byte) (s : State) : State :=
  { s with shift := b, ovf := true, out := s.out ++ sentByte s.shift }

/-- A unit and its handler, from a unit boundary: the handler runs on the completed unit (R80, R144). -/
theorem runInstrs_xferBc {v : Variant} {s : State} (b : Byte) (hv : s.cfg.variant = v) (hb : UnitBoundary s) :
    runInstrs (xferBc v b) s = .next (effect (byteComplete v) (unitDone b s)) := by
  obtain ⟨hcnt, hovf, hie, hdo⟩ := hb
  have hunit : runInstrs (xfer b) s = .next (unitDone b s) := by
    rw [unitExchangesAByte b s hcnt hovf, if_pos hdo]; rfl
  have hen : enabled (byteComplete v) (unitDone b s) = true := by
    cases v
    · exact enabled_byteCompleteA_iff.2 ⟨hv, rfl, hie⟩
    · exact enabled_byteCompleteB_iff.2 ⟨hv, rfl, hie⟩
  rw [xferBc, runInstrs_append hunit]
  exact runInstrs_cons_next.2 ⟨_, exec_of_enabled hen, rfl⟩

/-- The boundary after a unit: the old `SHIFT` sent, and `SHIFT` and `COUNT` as the handler left them. -/
def afterUnit (x : Byte) (n : BitVec 2) (s : State) : State :=
  { s with shift := x, count := n, out := s.out ++ sentByte s.shift }

theorem afterUnit_boundary {s : State} (hb : UnitBoundary s) (x : Byte) (n : BitVec 2) :
    UnitBoundary (afterUnit x n s) := hb

/-- Once the handler has cleared the flag, the block is at the boundary again. -/
theorem unitDone_cleared {s : State} (hb : UnitBoundary s) (b x : Byte) (n : BitVec 2) :
    { unitDone b s with shift := x, count := n, ovf := false } = afterUnit x n s := by
  obtain ⟨-, hovf, -⟩ := hb
  simp only [afterUnit, unitDone, hovf]

/-- A control byte is echoed and sets the count (R146). -/
theorem unit_control {s : State} {b : Byte} (hA : s.cfg.variant = .A) (hb : UnitBoundary s)
    (hctrl : b = 0x01#8 ∨ b = 0x02#8) :
    runInstrs (xferBc .A b) s = .next (afterUnit b (countOperand b) s) := by
  have hhandler : handlerA (unitDone b s) = controlEffect (countOperand b) (unitDone b s) :=
    handlerA_control (isControl_iff.2 hctrl)
  rw [runInstrs_xferBc b hA hb, byteComplete, effect, hhandler]
  exact congrArg _ (unitDone_cleared hb b b (countOperand b))

/-- A filler runs the handler's data branch (R73, R146). -/
theorem runInstrs_filler {s : State} {b : Byte} (hA : s.cfg.variant = .A) (hb : UnitBoundary s)
    (hf : b ≠ 0x01#8 ∧ b ≠ 0x02#8) : runInstrs (xferBc .A b) s = .next (dataEffect (unitDone b s)) := by
  have hhandler : handlerA (unitDone b s) = dataEffect (unitDone b s) := handlerA_data (isControl_eq_false hf.1 hf.2)
  rw [runInstrs_xferBc b hA hb, byteComplete, effect, hhandler]

/-- With nothing pending a filler is echoed (R148, D9). -/
theorem unit_idle {s : State} {b : Byte} (hA : s.cfg.variant = .A) (hb : UnitBoundary s) (hf : b ≠ 0x01#8 ∧ b ≠ 0x02#8)
    (hcount : s.count = 0#2) : runInstrs (xferBc .A b) s = .next (afterUnit b s.count s) := by
  rw [runInstrs_filler hA hb hf, dataEffect_idle (s := unitDone b s) hcount]
  exact congrArg _ (unitDone_cleared hb b b s.count)

/-- With `n` bytes pending and no mix a filler loads the register's byte `n - 1` (R147, D10). -/
theorem unit_load {s : State} {b : Byte} {n : BitVec 2} (hA : s.cfg.variant = .A) (hb : UnitBoundary s)
    (hf : b ≠ 0x01#8 ∧ b ≠ 0x02#8) (hcount : s.count = n) (hn : n ≠ 0#2) (hmix : s.mix = none) :
    runInstrs (xferBc .A b) s = .next (afterUnit (byteOf s.rr (n - 1#2)) (n - 1#2) s) := by
  subst hcount
  rw [runInstrs_filler hA hb hf, dataEffect_load_whole (s := unitDone b s) hn hmix]
  exact congrArg _ (unitDone_cleared hb b _ _)

/-- A Variant-B unit with no mix loads the register's low byte (R150). -/
theorem unit_stream {s : State} (b : Byte) (hB : s.cfg.variant = .B) (hb : UnitBoundary s) (hmix : s.mix = none) :
    runInstrs (xferBc .B b) s = .next (afterUnit (byteOf s.rr 0#2) s.count s) := by
  have hm : (unitDone b s).mix = none := hmix
  rw [runInstrs_xferBc b hB hb, byteComplete, effect, handlerB_eq, readRRByte_whole hm, drawsAfterRead_whole hm]
  exact congrArg _ (unitDone_cleared hb b _ s.count)

/-! ## After a select -/

theorem selectEffect_boundary (s : State) : UnitBoundary (selectEffect s) := ⟨rfl, rfl, rfl, rfl⟩

/-- Settles O28: what the re-arm writes depends on the configuration alone. -/
theorem selectStartsAfresh : Obligations.SelectStartsAfresh := by
  intro s u hcfg hreset
  refine ⟨selectEffect s, selectEffect u, exec_csFall s, exec_csFall u, rfl, rfl, rfl, rfl, rfl, fun hA => ?_, rfl, rfl⟩
  have hs : s.cfg.variant = .A ∧ s.cfg.countResetOnSelect = true := ⟨hA, hreset hA⟩
  rw [selectEffect_count, selectEffect_count, if_pos hs, if_pos (hcfg ▸ hs)]

/-- Fillers with nothing pending are echoed one unit late (R148). -/
theorem idle_units {fs : List Byte} {s : State} (hA : s.cfg.variant = .A) (hb : UnitBoundary s) (hcount : s.count = 0#2)
    (hfs : ∀ f ∈ fs, f ≠ 0x01#8 ∧ f ≠ 0x02#8) :
    runInstrs (fs.flatMap (xferBc .A)) s =
      .next { s with
        shift := fs.getLastD s.shift
        out := s.out ++ ((s.shift :: fs).dropLast).flatMap sentByte } := by
  induction fs generalizing s with
  | nil => simp [runInstrs]
  | cons f fs ih =>
    obtain ⟨hf, hfs⟩ := List.forall_mem_cons.1 hfs
    have hrest := ih (s := afterUnit f s.count s) hA (afterUnit_boundary hb f s.count) hcount hfs
    rw [List.flatMap_cons, runInstrs_append (unit_idle hA hb hf hcount), hrest, List.getLastD_cons,
      List.dropLast_cons_cons, List.flatMap_cons, ← List.append_assoc]
    rfl

/-- Settles O29: the select clears the count, and every unit after it is idle. -/
theorem noResumptionAfterReselect : Obligations.NoResumptionAfterReselect := by
  intro s fs hA hreset hfs
  have hcount : (selectEffect s).count = 0#2 := by rw [selectEffect_count, if_pos ⟨hA, hreset⟩]
  have hunits := idle_units (s := selectEffect s) hA (selectEffect_boundary s) hcount hfs
  exact ⟨_, runInstrs_cons_next.2 ⟨_, exec_csFall s, hunits⟩, hcount, rfl, rfl⟩

/-- Settles O30: the policy decides whether the unit after the reselect is idle or loads. -/
theorem reselectPolicy : Obligations.ReselectPolicy := by
  intro s f hA hmix hcount h1 h2
  let u := selectEffect (deselectEffect s)
  have hedges : runInstrs [.csRise, .csFall] s = .next u :=
    runInstrs_cons_next.2 ⟨_, exec_csRise s, runInstrs_cons_next.2 ⟨_, exec_csFall _, rfl⟩⟩
  have hb : UnitBoundary u := selectEffect_boundary _
  rw [runInstrs_append hedges]
  cases hreset : s.cfg.countResetOnSelect with
  | true =>
    have hu : u.count = 0#2 := by
      rw [selectEffect_count, if_pos ⟨hA, hreset⟩]
    exact ⟨_, unit_idle hA hb ⟨h1, h2⟩ hu, fun _ => ⟨hu, rfl⟩, nofun⟩
  | false =>
    have hkeep : ¬ ((deselectEffect s).cfg.variant = .A ∧ (deselectEffect s).cfg.countResetOnSelect = true) := by
      simp [hreset]
    have hu : u.count = s.count := by rw [selectEffect_count, if_neg hkeep, deselectEffect_count]
    exact ⟨_, unit_load hA hb ⟨h1, h2⟩ hu hcount hmix, nofun, fun _ => ⟨rfl, rfl⟩⟩

/-! ## Sessions -/

/-- The end of a request: one byte is pending, the first filler loads the low byte and the second sends it (R147,
R148). -/
theorem last_byte_units {s : State} {f g : Byte} (hA : s.cfg.variant = .A) (hb : UnitBoundary s) (hmix : s.mix = none)
    (hcount : s.count = 1#2) (hf : f ≠ 0x01#8 ∧ f ≠ 0x02#8) (hg : g ≠ 0x01#8 ∧ g ≠ 0x02#8) :
    runInstrs (xferBc .A f ++ xferBc .A g) s =
      .next { s with
        shift := g
        count := 0#2
        out := s.out ++ (sentByte s.shift ++ sentByte (s.rr.extractLsb' 0 8)) } := by
  have hidle := unit_idle (s := afterUnit (byteOf s.rr 0#2) 0#2 s) hA (afterUnit_boundary hb _ _) hg rfl
  rw [runInstrs_append (unit_load hA hb hf hcount (by decide) hmix), ← List.append_assoc]
  exact hidle

/-- Settles O43: the control unit is echoed one unit late, and `last_byte_units` ends both requests. -/
theorem requestTakesTwoMoreUnits : Obligations.RequestTakesTwoMoreUnits := by
  intro s f g h hA hb hmix hf hg hh
  constructor
  · let u := afterUnit 0x02#8 2#2 s
    have hcontrol : runInstrs (xferBc .A 0x02#8) s = .next u := unit_control hA hb (.inr rfl)
    have hfirst := unit_load (s := u) (n := 2#2) hA (afterUnit_boundary hb _ _) hf rfl (by decide) hmix
    have hlast := last_byte_units (s := afterUnit (byteOf s.rr 1#2) 1#2 u) hA (afterUnit_boundary (s := u) hb _ _) hmix
      rfl hg hh
    rw [runInstrs_append hcontrol, runInstrs_append hfirst]
    exact ⟨_, hlast, rfl, by simp [u, afterUnit, byteOf]⟩
  · let u := afterUnit 0x01#8 1#2 s
    have hcontrol : runInstrs (xferBc .A 0x01#8) s = .next u := unit_control hA hb (.inl rfl)
    have hlast := last_byte_units (s := u) hA (afterUnit_boundary hb _ _) hmix rfl hf hg
    rw [runInstrs_append hcontrol]
    exact ⟨_, hlast, rfl, by simp [u, afterUnit]⟩

/-- Variant-B units with no mix, once the low byte is loaded, send it and load it again (R152). -/
theorem stream_units {bs : List Byte} {s : State} (hB : s.cfg.variant = .B) (hb : UnitBoundary s) (hmix : s.mix = none)
    (hshift : s.shift = byteOf s.rr 0#2) :
    runInstrs (bs.flatMap (xferBc .B)) s =
      .next { s with out := s.out ++ bs.flatMap fun _ => sentByte (byteOf s.rr 0#2) } := by
  induction bs generalizing s with
  | nil => simp [runInstrs]
  | cons b bs ih =>
    have hrest := ih (s := afterUnit (byteOf s.rr 0#2) s.count s) hB (afterUnit_boundary hb _ _) hmix rfl
    rw [List.flatMap_cons, runInstrs_append (unit_stream b hB hb hmix), hrest, List.flatMap_cons, ← List.append_assoc]
    simp only [afterUnit, hshift]

/-- Settles O44: the first unit sends the old `SHIFT` and loads the low byte, and `stream_units` goes on. -/
theorem streamRepeatsLowByte : Obligations.StreamRepeatsLowByte := by
  intro s b bs hB hb hmix
  let u := afterUnit (byteOf s.rr 0#2) s.count s
  have hrest := stream_units (bs := bs) (s := u) hB (afterUnit_boundary hb _ _) hmix rfl
  rw [List.flatMap_cons, runInstrs_append (unit_stream b hB hb hmix), hrest, ← List.append_assoc]
  rfl

end Sys2Proof.Machine
end

section
/-! SUPPORT. What the whole machine keeps: the frame of the handlers, the spec's write matrix (10_state.md section 5),
the disarmed block (70_reset_and_hazards.md), and the invariant of the reachable states. -/

namespace Sys2Proof.Machine

/-! ## Handlers and reset -/

/-- All that a handler, whole or by its row, can write: `SHIFT`, `COUNT`, `OVF` and the draws (R146, R150, R151). -/
theorem effect_of_isHandler {i : Instr} (hi : i.isHandler = true) (s : State) :
    ∃ (x : Byte) (n : BitVec 2) (d : Nat),
      effect i s = { s with shift := x, count := n, ovf := false, draws := d } := by
  have hdata : ∃ (x : Byte) (n : BitVec 2) (d : Nat),
      dataEffect s = { s with shift := x, count := n, ovf := false, draws := d } := by
    by_cases hc : s.count = 0#2
    · exact ⟨_, _, _, dataEffect_idle hc⟩
    · exact ⟨_, _, _, dataEffect_load hc⟩
  cases i
  case tick | mixCommit | csFall | csRise | sck | reset => cases hi
  case byteCompleteA =>
    cases hc : isControl s.shift
    · rw [effect, handlerA_data hc]; exact hdata
    · exact ⟨_, _, _, handlerA_control hc⟩
  case byteCompleteB => exact ⟨_, _, _, handlerB_eq s⟩
  case ctrl1 | ctrl2 => exact ⟨_, _, _, rfl⟩
  all_goals exact hdata

/-- Settles O37: a handler is no entropy operation, and all that it writes is known. -/
theorem handlersClearTheFlag : Obligations.HandlersClearTheFlag := by
  intro i s t hi h
  obtain ⟨-, rfl⟩ := exec_next_iff.1 h
  rcases hi with rfl | rfl
  · exact ⟨handlerA_ovf s, effect_entropyPart rfl s⟩
  · exact ⟨handlerB_ovf s, effect_entropyPart rfl s⟩

/-- Settles O45: the word decodes in both variants, the reset is always taken, and `resetEffect` is the state that the
statement writes out. -/
theorem resetSetsEveryElement : Obligations.ResetSetsEveryElement :=
  ⟨fun _ => rfl, fun _ => exec_of_enabled rfl⟩

/-- Settles O46: the fields of `State.start`. -/
theorem resetStateValues : Obligations.ResetStateValues :=
  ⟨fun _ _ => ⟨rfl, rfl, rfl, rfl, rfl, rfl, rfl, rfl, rfl, rfl⟩, rfl, rfl⟩

/-! ## The write matrix -/

/-- A tick writes `RR` in an atomic build alone (R106). -/
theorem tickEffect_rr {n : Bool} {s : State} (h : (tickEffect n s).rr ≠ s.rr) : s.cfg.atomicMix = true := by
  rcases latch_cases n s with hl | hl | ⟨prev, hl, hne⟩
  · rw [tickEffect_of_empty hl] at h; exact absurd rfl h
  · rw [tickEffect_of_equal hl] at h; exact absurd rfl h
  · rw [tickEffect_of_unequal hl hne] at h
    by_contra ha
    rw [startMix_windowed (s := { s with latch := .empty }) (Bool.eq_false_of_not_eq_true ha)] at h
    exact h rfl

/-- A pulse emits one level, stalled or not (R141). -/
@[simp] theorem pulseEffect_out (d : Bool) (s : State) : (pulseEffect d s).out = s.out ++ [outputLevel s] := by
  unfold pulseEffect; split <;> rfl

/-- The pending count is written in Variant A alone (R22): a Variant-B handler leaves it. -/
theorem variant_of_count_written {i : Instr} {s : State} (hi : i.isHandler = true) (hen : enabled i s = true)
    (h : (effect i s).count ≠ s.count) : s.cfg.variant = .A := by
  cases i
  case tick | mixCommit | csFall | csRise | sck | reset => cases hi
  case byteCompleteA => exact (enabled_byteCompleteA_iff.1 hen).1
  case byteCompleteB => exact absurd rfl h
  all_goals exact ((enabled_row_iff rfl).1 hen).1

/-- Settles O48: a handler by all that it can write, the six other operations by their frames. -/
theorem writeMatrix : Obligations.WriteMatrix := by
  intro i s t h
  obtain ⟨hen, rfl⟩ := exec_next_iff.1 h
  cases hi : i.isHandler with
  | true =>
    have hcount := variant_of_count_written hi hen
    have hsck : ¬ ∃ d, i = .sck d := by rintro ⟨d, rfl⟩; cases hi
    obtain ⟨x, n, d, heq⟩ := effect_of_isHandler hi s
    rw [heq] at hcount ⊢
    simp +contextual [hsck, hcount]
  | false =>
    cases i
    case tick n =>
      have hrr := tickEffect_rr (n := n) (s := s)
      simpa [effect] using hrr
    case mixCommit => simp [effect]
    case csFall => simp +contextual [effect]
    case csRise => simp [effect]
    case sck d => simp [effect]
    case reset => simp +contextual [effect]
    all_goals cases hi

/-! ## The disarmed block -/

/-- With `BC_IE` clear no handler runs (R144). -/
theorem not_isHandler_of_disarmed {i : Instr} {s : State} (hie : s.bcIe = false) (hen : enabled i s = true) :
    i.isHandler = false := by
  by_contra hi
  have hready := (handlerReady_of_enabled (Bool.eq_true_of_not_eq_false hi) hen).2
  rw [hie] at hready
  cases hready

/-- A complete unit of a deselected block: its handler is cancelled, and only a select or a reset changes what it has
(70_reset_and_hazards.md section 3). -/
theorem exec_cancelled {i : Instr} {s t : State} (h : exec i s = .next t) (hi : i ≠ .csFall ∧ i ≠ .reset)
    (hovf : s.ovf = true) (hie : s.bcIe = false) :
    t.ovf = true ∧ t.bcIe = false ∧ t.shift = s.shift ∧ t.count = s.count ∧ i.isHandler = false := by
  obtain ⟨hen, rfl⟩ := exec_next_iff.1 h
  have hnot := not_isHandler_of_disarmed hie hen
  cases i
  case tick | mixCommit | csRise => simp [effect, hovf, hie, hnot]
  case sck d => rw [effect, pulseEffect_stalled hovf]; exact ⟨hovf, hie, rfl, rfl, hnot⟩
  case csFall => exact absurd rfl hi.1
  case reset => exact absurd rfl hi.2
  all_goals cases hnot

theorem runInstrs_cancelled {is : List Instr} {s t : State} (hno : ∀ i ∈ is, i ≠ .csFall ∧ i ≠ .reset)
    (h : runInstrs is s = .next t) (hovf : s.ovf = true) (hie : s.bcIe = false) :
    t.ovf = true ∧ t.bcIe = false ∧ t.shift = s.shift ∧ t.count = s.count ∧ ∀ i ∈ is, i.isHandler = false := by
  induction is generalizing s with
  | nil => cases h; exact ⟨hovf, hie, rfl, rfl, by simp⟩
  | cons i is ih =>
    obtain ⟨hi, his⟩ := List.forall_mem_cons.1 hno
    obtain ⟨u, hexec, hrun⟩ := runInstrs_cons_next.1 h
    obtain ⟨hovf', hie', hshift, hcount, hnot⟩ := exec_cancelled hexec hi hovf hie
    obtain ⟨h1, h2, h3, h4, h5⟩ := ih his hrun hovf' hie'
    exact ⟨h1, h2, h3.trans hshift, h4.trans hcount, List.forall_mem_cons.2 ⟨hnot, h5⟩⟩

/-- Settles O42: the deselect leaves the flag set and the interrupt off, where `runInstrs_cancelled` goes on. -/
theorem deselectCancelsHandler : Obligations.DeselectCancelsHandler := by
  intro is s t hovf hno h
  obtain ⟨u, hexec, hrun⟩ := runInstrs_cons_next.1 h
  obtain ⟨-, rfl⟩ := exec_next_iff.1 hexec
  exact runInstrs_cancelled (s := deselectEffect s) hno hrun hovf rfl

/-- A step of a block that is not armed leaves it so, and shows at most a `Z` (70_reset_and_hazards.md section 1). -/
theorem exec_disarmed {i : Instr} {s t : State} (h : exec i s = .next t) (hi : i ≠ .csFall) (hie : s.bcIe = false)
    (hdo : s.doEn = false) :
    t.bcIe = false ∧ t.doEn = false ∧ i.isHandler = false ∧ ∃ k, t.out = s.out ++ List.replicate k .z := by
  obtain ⟨hen, rfl⟩ := exec_next_iff.1 h
  have hnot := not_isHandler_of_disarmed hie hen
  cases i
  case tick | mixCommit | csRise | reset =>
    exact ⟨by simp [effect, hie], by simp [effect, hdo], hnot, 0, by simp [effect]⟩
  case sck d => exact ⟨by simp [effect, hie], by simp [effect, hdo], hnot, 1, by simp [effect, outputLevel, hdo]⟩
  case csFall => exact absurd rfl hi
  all_goals cases hnot

/-- Settles O47, by induction on the run. -/
theorem disarmedUntilSelect : Obligations.DisarmedUntilSelect := by
  intro is
  induction is with
  | nil => intro s t hie hdo _ h; cases h; exact ⟨hie, hdo, by simp, 0, by simp⟩
  | cons i is ih =>
    intro s t hie hdo hno h
    obtain ⟨hi, his⟩ := List.forall_mem_cons.1 hno
    obtain ⟨u, hexec, hrun⟩ := runInstrs_cons_next.1 h
    obtain ⟨hie', hdo', hnot, k, hout⟩ := exec_disarmed hexec hi hie hdo
    obtain ⟨h1, h2, h3, l, h4⟩ := ih u t hie' hdo' his hrun
    refine ⟨h1, h2, List.forall_mem_cons.2 ⟨hnot, h3⟩, k + l, ?_⟩
    rw [h4, hout, List.append_assoc, ← List.replicate_add]

/-! ## The invariant -/

/-- A step of the transport path keeps the invariant if it keeps the count legal and the enables together. -/
theorem invariant_of_entropyPart {s t : State} (h : Invariant s) (hpart : entropyPart t = entropyPart s)
    (hcount : t.count ≠ 3#2) (henable : t.bcIe = t.sel.bit) (hdriver : t.doEn = t.sel.bit) : Invariant t := by
  obtain ⟨hcfg, hrr, -, hmix⟩ := entropyPart_eq_iff.1 hpart
  refine ⟨?_, ?_, ?_, ?_, hcount, henable, hdriver⟩
  · rw [hcfg]; exact h.seed
  · rw [hrr]; exact h.padding
  · rw [hmix, hrr]; exact h.inFlight
  · rw [hcfg, hmix]; exact h.atomic

/-- Nothing in the invariant reads the latch, the trace or the position. -/
theorem invariant_at {s : State} (h : Invariant s) (l : Latch) (events : List EventWord) (n : Nat) :
    Invariant { s with latch := l, trace := events, index := n } :=
  ⟨h.seed, h.padding, h.inFlight, h.atomic, h.count, h.enable, h.driver⟩

theorem startMix_keeps_invariant {s : State} (h : Invariant s) (hm : s.mix = none) (e : Bool) :
    Invariant (startMix e s) := by
  cases ha : s.cfg.atomicMix with
  | true =>
    rw [startMix_atomic ha]
    refine ⟨h.seed, mixFn_padding e h.padding, fun m hm' => ?_, h.atomic, h.count, h.enable, h.driver⟩
    cases hm.symm.trans hm'
  | false =>
    rw [startMix_windowed ha]
    refine ⟨h.seed, h.padding, fun m hm' => ?_, fun ha' => ?_, h.count, h.enable, h.driver⟩
    · cases hm'; exact ⟨rfl, e, rfl⟩
    · cases ha.symm.trans ha'

theorem tickEffect_keeps_invariant {s : State} (h : Invariant s) (hm : s.mix = none) (n : Bool) :
    Invariant (tickEffect n s) := by
  rcases latch_cases n s with hl | hl | ⟨prev, hl, hne⟩
  · rw [tickEffect_of_empty hl]; exact invariant_at h _ s.trace s.index
  · rw [tickEffect_of_equal hl]; exact invariant_at h _ s.trace s.index
  · rw [tickEffect_of_unequal hl hne]
    exact startMix_keeps_invariant (invariant_at h .empty s.trace s.index) hm prev

/-- The value committed is a mix of the register, so its padding is zero (R110). -/
theorem commitMix_keeps_invariant {s : State} (h : Invariant s) : Invariant (commitMix s) := by
  cases hm : s.mix with
  | none => rw [commitMix_none hm]; exact h
  | some m =>
    obtain ⟨-, e, hnew⟩ := h.inFlight m hm
    rw [commitMix_some hm]
    exact ⟨h.seed, hnew ▸ mixFn_padding e h.padding, nofun, fun _ => rfl, h.count, h.enable, h.driver⟩

/-- One less than a legal pending count is legal (R22). -/
theorem pred_count_ne_three : ∀ n : BitVec 2, n ≠ 0#2 → n ≠ 3#2 → n - 1#2 ≠ 3#2 := by decide

theorem dataEffect_count_ne_three {s : State} (h : s.count ≠ 3#2) : (dataEffect s).count ≠ 3#2 := by
  by_cases hc : s.count = 0#2
  · rw [dataEffect_idle hc]; exact h
  · rw [dataEffect_load hc]; exact pred_count_ne_three _ hc h

theorem handlerA_count_ne_three {s : State} (h : s.count ≠ 3#2) : (handlerA s).count ≠ 3#2 := by
  cases hc : isControl s.shift with
  | false => rw [handlerA_data hc]; exact dataEffect_count_ne_three h
  | true =>
    rw [handlerA_control hc, controlEffect_count]
    rcases isControl_iff.1 hc with hb | hb <;> rw [hb] <;> decide

/-- No transport operation leaves a count of 3 (R22). -/
theorem effect_count_ne_three {i : Instr} {s : State} (hi : i.isEntropy = false) (h : s.count ≠ 3#2) :
    (effect i s).count ≠ 3#2 := by
  cases i
  case tick | mixCommit | reset => cases hi
  case csFall =>
    rw [effect, selectEffect_count]
    split
    · decide
    · exact h
  case csRise | byteCompleteB => exact h
  case sck d => rw [effect, pulseEffect_count]; exact h
  case byteCompleteA => exact handlerA_count_ne_three h
  case ctrl1 | ctrl2 => rw [effect, controlEffect_count]; decide
  all_goals exact dataEffect_count_ne_three h

/-- The enables follow the select through every transport operation (R31). -/
theorem effect_enables {i : Instr} {s : State} (hi : i.isEntropy = false) (hie : s.bcIe = s.sel.bit)
    (hdo : s.doEn = s.sel.bit) :
    (effect i s).bcIe = (effect i s).sel.bit ∧ (effect i s).doEn = (effect i s).sel.bit := by
  cases i
  case tick | mixCommit | reset => cases hi
  case csFall | csRise => exact ⟨rfl, rfl⟩
  all_goals simp [effect, hie, hdo]

theorem resetEffect_keeps_invariant {s : State} (h : Invariant s) : Invariant (resetEffect s) := by
  refine ⟨h.seed, h.seed.2, nofun, fun _ => rfl, ?_, rfl, rfl⟩
  rw [resetEffect_count]
  split
  · decide
  · exact h.count

/-- Every operation keeps the invariant where it is enabled. -/
theorem exec_keeps_invariant {i : Instr} {s t : State} (h : Invariant s) (hexec : exec i s = .next t) :
    Invariant t := by
  obtain ⟨hen, rfl⟩ := exec_next_iff.1 hexec
  cases hi : i.isEntropy with
  | false =>
    obtain ⟨henable, hdriver⟩ := effect_enables hi h.enable h.driver
    exact invariant_of_entropyPart h (effect_entropyPart hi s) (effect_count_ne_three hi h.count) henable hdriver
  | true =>
    cases i
    case tick n => exact tickEffect_keeps_invariant h (enabled_tick_iff.1 hen) n
    case mixCommit => exact commitMix_keeps_invariant h
    case reset => exact resetEffect_keeps_invariant h
    all_goals cases hi

/-- Settles O50: the step waits, or executes an event in the state whose trace has moved on. -/
theorem everyStepKeepsInvariant : Obligations.EveryStepKeepsInvariant := by
  intro s t h hstep
  rcases step_next_cases hstep with ⟨-, rfl⟩ | ⟨w, rest, i, -, -, hexec⟩
  · exact h
  · exact exec_keeps_invariant (invariant_at h s.latch rest (s.index + 1)) hexec

/-- At reset the seed is legal, and every other element is at its reset value (R200). -/
theorem isReset_invariant {s : State} (h : s.IsReset) : Invariant s := by
  obtain ⟨c, events, x, d, hc, rfl⟩ := h
  have hcount : (State.start c events).count ≠ 3#2 := by simp [State.start]
  exact ⟨hc, hc.2, nofun, fun _ => rfl, hcount, rfl, rfl⟩

theorem start_isReset {c : Cfg} (hc : c.Legal) (events : List EventWord) : (State.start c events).IsReset :=
  ⟨c, events, _, _, hc, rfl⟩

/-- Settles O49: `State.start` is a reset state of a legal configuration, the default one too. -/
theorem invariantHoldsAtReset : Obligations.InvariantHoldsAtReset :=
  ⟨fun _ events hc => isReset_invariant (start_isReset hc events), isReset_invariant (start_isReset (by decide) [])⟩

end Sys2Proof.Machine
end

section
/-! SUPPORT. Runs (R187): where they start and go on, what they show, and the invariant along them. -/

namespace Sys2Proof.Machine

/-! ## Starting and going on -/

/-- Settles O53: the empty run, and one more `CS_FALL`, which every state takes. -/
theorem runsStartAtResetAndGoOn : Obligations.RunsStartAtResetAndGoOn := by
  refine ⟨fun c events hc => ⟨start_isReset hc events, by simp, rfl⟩, fun is s t hrun => ?_⟩
  refine ⟨_, exec_csFall t, hrun.start, ?_, ?_⟩
  · intro i hi
    rcases List.mem_append.1 hi with hi | hi
    · exact hrun.event i hi
    · rw [List.mem_singleton.1 hi]; rfl
  · rw [runInstrs_append hrun.steps]
    exact runInstrs_cons_next.2 ⟨_, exec_csFall t, rfl⟩

/-! ## What a run shows -/

theorem observation_cons {i : Instr} {rest : List Instr} {s u : State} (h : exec i s = .next u) :
    observation (i :: rest) s =
      ((emittedLevel i s).toList ++ (observation rest u).1, u :: (observation rest u).2) := by
  simp only [observation, h]

/-- What is emitted grows by the level of the step (R13, R141). -/
theorem exec_out {i : Instr} {s t : State} (h : exec i s = .next t) : t.out = s.out ++ (emittedLevel i s).toList := by
  obtain ⟨-, rfl⟩ := exec_next_iff.1 h
  cases i
  case sck d => exact pulseEffect_out d s
  all_goals simp [effect, emittedLevel]

/-- A clock pulse and nothing else emits a level. -/
theorem emittedLevel_length (i : Instr) (s : State) :
    (emittedLevel i s).toList.length = ([i].filter fun i => i = .sck false ∨ i = .sck true).length := by
  cases i
  case sck d => cases d <;> rfl
  all_goals rfl

/-- The observation of a run from any state. -/
theorem observation_of_run {is : List Instr} {s t : State} (h : runInstrs is s = .next t) :
    t.out = s.out ++ (observation is s).1 ∧
    (observation is s).1.length = (is.filter fun i => i = .sck false ∨ i = .sck true).length ∧
    (observation is s).2.length = is.length ∧ (observation is s).2.getLastD s = t := by
  induction is generalizing s with
  | nil => cases h; simp [observation]
  | cons i is ih =>
    obtain ⟨u, hexec, hrun⟩ := runInstrs_cons_next.1 h
    obtain ⟨hout, hlevels, hstates, hlast⟩ := ih hrun
    rw [observation_cons hexec]
    refine ⟨?_, ?_, ?_, ?_⟩
    · rw [hout, exec_out hexec, List.append_assoc]
    · rw [List.length_append, hlevels, emittedLevel_length, ← List.length_append, ← List.filter_append,
        List.singleton_append]
    · simp [hstates]
    · rw [List.getLastD_cons, hlast]

/-- Settles O54: `observation_of_run`, and that nothing was emitted before a run from reset. -/
theorem runIsObserved : Obligations.RunIsObserved := by
  refine ⟨fun _ _ _ => observation_of_run, fun is s t hrun => ?_⟩
  obtain ⟨c, events, x, d, -, hs⟩ := hrun.start
  have hout : s.out = [] := by rw [hs]; rfl
  rw [(observation_of_run hrun.steps).1, hout, List.nil_append]

/-! ## The invariant along a run -/



/-- The states that a run shows all meet the invariant if its start does. -/
theorem observed_states_invariant {is : List Instr} {s t : State} (hs : Invariant s) (h : runInstrs is s = .next t) :
    ∀ u ∈ s :: (observation is s).2, Invariant u := by
  induction is generalizing s with
  | nil => intro u hu; rw [List.mem_singleton.1 hu]; exact hs
  | cons i is ih =>
    obtain ⟨u, hexec, hrun⟩ := runInstrs_cons_next.1 h
    rw [observation_cons hexec]
    exact List.forall_mem_cons.2 ⟨hs, ih (exec_keeps_invariant hs hexec) hrun⟩

/-- Settles O55: the invariant holds at reset and every step keeps it, along the list or along the sequence. -/
theorem runsMeetInvariant : Obligations.RunsMeetInvariant := by
  refine ⟨fun is s t hrun => observed_states_invariant (isReset_invariant hrun.start) hrun.steps, fun σ ev hrun k => ?_⟩
  induction k with
  | zero => exact isReset_invariant hrun.start
  | succ k ih => exact exec_keeps_invariant ih (hrun.next k)

end Sys2Proof.Machine
end
